-- ==== Sys2Proof/Word.lean ====
section
/-! DEFINITION. The word types of the block: the 32-bit quantities of R7 and R26 and the bytes of the sequence buffer (R60). -/

namespace Sys2Proof

/-- A 32-bit unsigned quantity: a frequency, a half-period, a data word (R26, R66, R91). -/
abbrev Word := BitVec 32

/-- One byte of the sequence buffer of SWJ.CLOCK_SEQUENCE, or one 8-bit line mask (R60, R65). -/
abbrev Byte := BitVec 8

end Sys2Proof
end

