-- ==== Sys2Proof/Syntax.lean ====
section
/-! DEFINITION. The operations of the block (one constructor per row of spec/opcode_table.json), the names they speak of,
and the frames that carry them: the command port (R44), the sequencer's own micro-operation register and the wire. -/

namespace Sys2Proof

/-- The three signal lines (R4, R11): clock, data, reset. -/
inductive Line where
  | clk
  | dio
  | rst
  deriving DecidableEq, Repr

/-- The three modes of a line (R22): `OUT` push-pull-output, `IN` floating-input, `DIS` disabled. -/
inductive Mode where
  | out
  | inp
  | dis
  deriving DecidableEq, Repr

/-- The nine result statuses of R112 that are ever produced. -/
inductive Status where
  | ok
  | ackWait
  | ackFault
  | ackNoResponse
  | badParity
  | unsupportedConfiguration
  | clockRejected
  | refused
  | unavailable
  deriving DecidableEq, Repr

/-- The operations of R92, the codes that name none (R114 (a)), and the wire frames of spec/opcode_table.json. -/
inductive Instr where
  -- external operations, codes 0b00000 to 0b01110
  | suspend
  | timSetClock (hz : Word)
  | swjDrive (outputLevels mask : Byte) (settleUs : Word)
  | swjClockSequence (bitCount : Word) (bytes : List Byte)
  | swdAcquire
  | swdRelease
  | swdRead (apndp : Bool) (a : BitVec 2)
  | swdWrite (apndp : Bool) (a : BitVec 2) (data : Word)
  | swdConfigure (trn : BitVec 2) (dph : Bool)
  | swdSetClock (hz : Word)
  | jtagAvailable
  | jtagAcquire
  | jtagRelease
  | jtagSequences (bitCount : Word) (bytes : List Byte)
  | jtagSetClock (hz : Word)
  -- the reserved code 0b01111
  | reserved01111
  -- internal micro-operations, codes 0b10000 to 0b10110
  | pinSetMode (line : Line) (mode : Mode)
  | pinWrite (line : Line) (level : Bool)
  | pinRead (line : Line)
  | timConfigure (cpu max : Word)
  | timDelay (n : Nat)
  | sendBits (n : Nat) (v : Word)
  | recvBits (n : Nat)
  -- the unused codes 0b10111 to 0b11111
  | unused10111
  | unused11000
  | unused11001
  | unused11010
  | unused11011
  | unused11100
  | unused11101
  | unused11110
  | unused11111
  -- frames on the data line
  | wireRequestRead (apndp : Bool) (a : BitVec 2)
  | wireRequestWrite (apndp : Bool) (a : BitVec 2)
  | wireAckphaseRead (v : BitVec 4)
  | wireAckphaseWrite (v : BitVec 5)
  | wireAckOk
  | wireAckWait
  | wireAckFault
  deriving DecidableEq, Repr

/-- What the caller drives on the command port when it offers an operation (R44, R91): the code and every operand port,
`bytes` being the byte stream of format `SQ`. -/
structure CmdPort where
  op       : BitVec 5
  apndp    : Bool := false
  a        : BitVec 2 := 0
  word     : Word := 0
  out      : Byte := 0
  mask     : Byte := 0
  trn      : BitVec 2 := 0
  dph      : Bool := false
  bitCount : Word := 0
  bytes    : List Byte := []
  deriving DecidableEq, Repr

/-- The sequencer's micro-operation register: code and operands of format `MI` (R91).
DESIGN CHOICE (log 8): the spec names the operands and gives them no ports. Safe. -/
structure MicroPort where
  op    : BitVec 5
  line  : BitVec 2 := 0
  mode  : BitVec 2 := 0
  level : Bool := false
  count : BitVec 64 := 0
  value : Word := 0
  cpu   : Word := 0
  max   : Word := 0
  deriving DecidableEq, Repr

/-- What the sequencer itself issues: a micro-operation, or one frame of a transaction on the data line
(a request byte R94, an ACK-phase value R98, a 3-bit ACK code R101). -/
inductive SeqFrame where
  | micro (m : MicroPort)
  | request (b : BitVec 8)
  | ackRead (v : BitVec 4)
  | ackWrite (v : BitVec 5)
  | ack (c : BitVec 3)
  deriving DecidableEq, Repr

/-- The two ways an operation reaches the block: offered on the command port, or issued by its own sequencer (R91). -/
inductive Frame where
  | command (p : CmdPort)
  | internal (f : SeqFrame)
  deriving DecidableEq, Repr

end Sys2Proof
end

