-- ==== Sys2Proof/Config.lean ====
section
/-! DEFINITION. What the spec leaves open: the parameters of R6 and the free values.
The constants without a body are free: nothing can be proved of them but what their type says. -/

namespace Sys2Proof

/-! ### Parameters with a decided default (R6, R65, U11) -/

/-- `BIT_CLK`, `BIT_DIO`, `BIT_RST`: where an SWJ.DRIVE mask holds each line, three positions in 0..7 (R65, D13, U11). -/
structure MaskBits where
  clk : Fin 8
  dio : Fin 8
  rst : Fin 8
  deriving DecidableEq, Repr

/-- The three positions are distinct (R65). -/
abbrev MaskBits.Distinct (B : MaskBits) : Prop := B.clk ≠ B.dio ∧ B.clk ≠ B.rst ∧ B.dio ≠ B.rst

/-! ### Open parameters (R6, U3, U10) and free values (U4) -/

/-- A draw that fixes `CPU_FREQ`; no body (log 3). -/
opaque Config.cpuFreqDraw : Word

/-- A draw that fixes `INIT_MAX_FREQ`; no body (log 3). -/
opaque Config.initMaxFreqDraw : Word

/-- `CPU_FREQ`: any value of 2 .. 2^32 - 1. A frequency of 1 Hz admits no `INIT_MAX_FREQ` (R6). -/
def Config.cpuFreq : Word :=
  BitVec.ofNatLT (Config.cpuFreqDraw.toNat % 4294967294 + 2)
    (by have := Nat.mod_lt Config.cpuFreqDraw.toNat (show 0 < 4294967294 by decide); omega)

/-- `INIT_MAX_FREQ`: any value of 1 .. `CPU_FREQ` - 1 (R6, R302). -/
def Config.initMaxFreq : Word :=
  BitVec.ofNatLT (Config.initMaxFreqDraw.toNat % (Config.cpuFreqDraw.toNat % 4294967294 + 1) + 1)
    (by
      have h := Nat.mod_lt Config.cpuFreqDraw.toNat (show 0 < 4294967294 by decide)
      have := Nat.mod_lt Config.initMaxFreqDraw.toNat
        (show 0 < Config.cpuFreqDraw.toNat % 4294967294 + 1 by omega)
      omega)

/-- `LATCH_RESET[L]`: the level in each output latch after reset, a draw made once (R23, R50, U3); no body (log 4). -/
opaque Config.latchReset : Line → Bool

/-- The level the environment presents to the `k`-th sample when the state scripts no answer for it (R37, U4); no body (log 2). -/
opaque Config.envLevel : Nat → Bool

/-- The half-period TIM.CONFIGURE computes from a processor frequency and `max` = 0, for which the formula of R151 has no
value; no body (log 12). -/
opaque Config.halfPeriodOfZero : Word → Word

end Sys2Proof
end

