-- ==== Sys2Proof/Machine/Flags.lean ====
section
/-! DEFINITION. The flag computations: the request byte and its parity (R94 to R96), the ACK code and what it means
(R100, R101), the data parity (R104). -/

namespace Sys2Proof.Machine

/-- The number of ones among the low `n` bits of `w` (R7). -/
def popcountUpTo (w : Word) : Nat → Nat
  | 0 => 0
  | n + 1 => popcountUpTo w n + (w.getLsbD n).toNat

/-- The number of ones of a 32-bit word (R7). -/
def popcount (w : Word) : Nat := popcountUpTo w 32

/-- `Parity32(w) = popcount(w) mod 2` (R104, C1). -/
def parity32 (w : Word) : Bool := decide (popcount w % 2 = 1)

/-- The request parity: the exclusive or of APnDP, RnW, A2 and A3 (R95). -/
def requestParity (apndp rnw : Bool) (a : BitVec 2) : Bool :=
  (apndp ^^ rnw) ^^ (a.getLsbD 0 ^^ a.getLsbD 1)

/-- `MakeRequest(apndp, rnw, a)` (R96): start bit 0 and park bit 7 set, stop bit 6 clear, the operands in bits 1 to 4 and
their parity in bit 5. PRESUMED by the spec from general knowledge (D6, log 15). Unsafe. -/
def makeRequest (apndp rnw : Bool) (a : BitVec 2) : BitVec 8 :=
  0b10000001#8 ||| ((BitVec.ofBool apndp).setWidth 8 <<< 1) ||| ((BitVec.ofBool rnw).setWidth 8 <<< 2) |||
    (a.setWidth 8 <<< 3) ||| ((BitVec.ofBool (requestParity apndp rnw a)).setWidth 8 <<< 5)

/-- The RnW bit of a request byte (R94). -/
def requestRnw (req : BitVec 8) : Bool := req.getLsbD 2

/-- The ACK code OK (R101), the one code the source gives. -/
def ackOkCode : BitVec 3 := 0b001

/-- The ACK code WAIT. PRESUMED by the spec from general knowledge (R101, D7, log 15). Unsafe. -/
def ackWaitCode : BitVec 3 := 0b010

/-- The ACK code FAULT. PRESUMED by the spec from general knowledge (R101, D7, log 15). Unsafe. -/
def ackFaultCode : BitVec 3 := 0b100

/-- `ack = (v >> 1) & 0b111`, the same on both paths (R100). -/
def ackOf (v : Word) : BitVec 3 := (v >>> 1).setWidth 3

/-- The result of a transaction whose ACK is not OK (R101, R270): WAIT, FAULT, and no response for every other value. -/
def ackErrorStatus (ack : BitVec 3) : Status :=
  if ack = ackWaitCode then .ackWait
  else if ack = ackFaultCode then .ackFault
  else .ackNoResponse

end Sys2Proof.Machine
end

