-- ==== Sys2Proof/Machine/Operands.lean ====
section
/-! DEFINITION. Operand forms and the unsigned arithmetic on them: the half-period and settle arithmetic (R151, R154, R157),
the bits of a mask (R65), the bits of a sequence (R64, R68). -/

namespace Sys2Proof.Machine

/-- `cpu div hz div 2`, both divisions truncating, left to right (R153, R154). Used only where `hz` is not 0. -/
def halfPeriodOf (cpu hz : Word) : Word := cpu / hz / 2

/-- The half-period TIM.CONFIGURE computes (R151): the same formula; where `max` is 0 the formula has no value and a free one
stands for it (DESIGN CHOICE, log 12). Safe. -/
def configuredHalfPeriod (cpu max : Word) : Word := if max = 0 then Config.halfPeriodOfZero cpu else halfPeriodOf cpu max

/-- `cpu div 1_000_000` (R151, D4). -/
def cyclesPerUsOf (cpu : Word) : Word := cpu / 1000000

/-- The settle delay of SWJ.DRIVE in cycles, computed without wrap-around (R157). -/
def settleCycles (settleUs cyclesPerUs : Word) : Nat := settleUs.toNat * cyclesPerUs.toNat

/-- The decided default of the mask positions: CLK 0, DIO 1, RST 7.
PRESUMED by the spec from general knowledge (R65, D13, log 15). Unsafe. -/
def maskBits : MaskBits := ⟨0, 1, 7⟩

/-- The position of a line in a mask (R65). -/
def maskBit (B : MaskBits) : Line → Nat
  | .clk => B.clk.val
  | .dio => B.dio.val
  | .rst => B.rst.val

/-- The bit of an 8-bit mask that stands for line `L` (R65). -/
def lineBit (B : MaskBits) (m : Byte) (L : Line) : Bool := m.getLsbD (maskBit B L)

/-- The 8-bit mask with `c`, `d`, `r` in the bits of CLK, DIO, RST and 0 elsewhere (R65, R171). -/
def lineMask (B : MaskBits) (c d r : Bool) : Byte :=
  (if c then 1#8 <<< maskBit B .clk else 0) ||| (if d then 1#8 <<< maskBit B .dio else 0) |||
    (if r then 1#8 <<< maskBit B .rst else 0)

/-- Bit `k` of a byte sequence, LSB first per byte: `bytes[k div 8][k mod 8]` (R64). -/
def seqBit (bytes : List Byte) (k : Nat) : Bool := (bytes.getD (k / 8) 0).getLsbD (k % 8)

/-- How many bits SWJ.CLOCK_SEQUENCE clocks: `min(bit_count, 8 * len)` (R68). -/
def seqLength (bitCount : Word) (bytes : List Byte) : Nat := min bitCount.toNat (8 * bytes.length)

/-- `v` with bit `i` set to `b`, for a bit that was 0: how a received bit enters a value (R193). -/
def putBit (v : Word) (i : Nat) (b : Bool) : Word := if b then v ||| (1#32 <<< i) else v

end Sys2Proof.Machine
end

