-- ==== Sys2Proof/Machine/State.lean ====
section
/-! DEFINITION. The state of the block as plain data: every piece of R20, the queues and the environment's answers that
drive a step, and the wire trace (R10). The state right after reset (R50), and the reasons a step can stop. -/

namespace Sys2Proof.Machine

/-- One value per signal line: the arrays `mode[L]` and `lat[L]` (R8). -/
structure PerLine (α : Type) where
  clk : α
  dio : α
  rst : α
  deriving DecidableEq, Repr

/-- Who holds the Transport Context (R28). -/
inductive Owner where
  | free
  | swd
  | jtag
  deriving DecidableEq, Repr

/-- Where a transaction is (R29, R200). -/
inductive Phase where
  | idle
  | requestSent
  | ackPhase
  | dataPhase
  | dataSend
  | trailingIdle
  | errorFlush
  deriving DecidableEq, Repr

/-- The pin events of the wire trace (R10): a mode change, a latch write, a sample, a delay. -/
inductive Event where
  | mode (line : Line) (m : Mode)
  | write (line : Line) (level : Bool)
  | sample (line : Line) (level : Bool)
  | delay (n : Nat)
  deriving DecidableEq, Repr

/-- One entry of the wire trace: an event of R10 and the `phase` held while it happened, so that the clocks each phase
labels can be read off (R200). DESIGN CHOICE (log 6). Safe. -/
structure TraceEntry where
  phase : Phase
  event : Event
  deriving DecidableEq, Repr

/-- The result register `rsp` (R35): status, data, and whether a result is presented. -/
structure Rsp where
  status : Status
  data   : Word
  valid  : Bool
  deriving DecidableEq, Repr

/-- The machine. The first group is the spec's state (R20, `busy` of R44 and R50); the last five fields are the model's own:
what the caller still offers (R325), what the sequencer still issues (R91), the environment's coming answers and how many
were taken (R37), and the trace (R10). The hard-wired `trn_cfg` and `dph_cfg` need no storage (R36). -/
structure State where
  mode        : PerLine Mode
  lat         : PerLine Bool
  cpuFreq     : Word
  maxFreq     : Word
  cyclesPerUs : Word
  halfPeriod  : Word
  owner       : Owner
  phase       : Phase
  bitcnt      : BitVec 6
  req         : BitVec 8
  ack         : BitVec 3
  shreg       : Word
  par         : Bool
  dly         : BitVec 64
  rsp         : Rsp
  busy        : Bool
  offers      : List CmdPort
  useq        : List SeqFrame
  env         : List Bool
  samples     : Nat
  trace       : List TraceEntry
  deriving DecidableEq, Repr

/-- `trn_cfg`, hard-wired to a turnaround of 1 clock cycle, coded as cycles minus one (R36, R110). -/
def State.trnCfg (_ : State) : BitVec 2 := 0

/-- `dph_cfg`, hard-wired to no data phase on WAIT or FAULT (R36, R110). -/
def State.dphCfg (_ : State) : Bool := false

/-- The state at power-up as reset finds it, before TIM.CONFIGURE has run (R300 (a)): every piece of state but the four
timing registers at its value of R50. `req`, `ack`, `shreg` and `par` are unspecified there: DESIGN CHOICE 0 (log 5). Unsafe. -/
def State.unconfigured (lat : PerLine Bool) : State where
  mode := ⟨.inp, .inp, .inp⟩
  lat := lat
  cpuFreq := 0
  maxFreq := 0
  cyclesPerUs := 0
  halfPeriod := 0
  owner := .free
  phase := .idle
  bitcnt := 0
  req := 0
  ack := 0
  shreg := 0
  par := false
  dly := 0
  rsp := ⟨.ok, 0, false⟩
  busy := false
  offers := []
  useq := []
  env := []
  samples := 0
  trace := []

/-- The reset state of a block whose parameters are `cpu`, `max` and `lat` (R50, R300 (b)). -/
def State.resetWith (cpu max : Word) (lat : PerLine Bool) : State :=
  { State.unconfigured lat with
    cpuFreq := cpu
    maxFreq := max
    cyclesPerUs := cyclesPerUsOf cpu
    halfPeriod := halfPeriodOf cpu max }

/-- The machine right after reset (R50), at the open parameters of R6. -/
def State.reset : State :=
  State.resetWith Config.cpuFreq Config.initMaxFreq
    ⟨Config.latchReset .clk, Config.latchReset .dio, Config.latchReset .rst⟩

/-- Why the machine stops with no next state (R271): the two holes in the block's definition. -/
inductive Fault where
  /-- Raised by TIM.SET_CLOCK, SWD.SET_CLOCK and JTAG.SET_CLOCK on 0 Hz after the range test (R156, U1, R271).
  Safe: the model stops where hardware may go on. -/
  | divideByZero
  /-- Raised by a pin write on a line that is not in `OUT` mode and a pin read on a line that is not in `IN` mode
  (R134, U2), whoever performs them. Safe; unreachable from the command port (R135). -/
  | pinModeMisuse
  deriving DecidableEq, Repr

/-- Why the machine gives a frame no meaning. -/
inductive Refusal where
  /-- An operation that exec rejects by name. No arm of exec does. Safe. -/
  | notModelled (mnemonic : String)
  deriving DecidableEq, Repr

end Sys2Proof.Machine
end

