-- ==== Sys2Proof/Machine/Ops.lean ====
section
/-! DEFINITION. The named operations every meaning is written from: the pin primitives (R131 to R134), the delay (R152), the
bit routines (R174, R190 to R193), the pieces of a transaction (R201, R202, R204), and giving a response (R35), a refusal
(R286) or an ACK error (R202, R274), which are this block's exceptions: it has no trap vector and saves nothing (R276). -/

namespace Sys2Proof.Machine

/-! ### Lines -/

/-- Element `L` of a per-line array (R8). -/
def PerLine.get {α : Type} (p : PerLine α) : Line → α
  | .clk => p.clk
  | .dio => p.dio
  | .rst => p.rst

/-- The array with element `L` replaced. -/
def PerLine.set {α : Type} (p : PerLine α) (L : Line) (x : α) : PerLine α :=
  match L with
  | .clk => { p with clk := x }
  | .dio => { p with dio := x }
  | .rst => { p with rst := x }

/-- The wire trace grows by one event, under the phase held (R10). -/
def record (e : Event) (s : State) : State := { s with trace := s.trace ++ [⟨s.phase, e⟩] }

/-! ### Pin primitives -/

/-- `SetMode(L, m)` (R131): an event only when the mode changes; the latch is kept. -/
def setMode (L : Line) (m : Mode) (s : State) : State :=
  if s.mode.get L = m then s else record (.mode L m) { s with mode := s.mode.set L m }

/-- `PinWrite(L, b)` (R132): the latch is written and the event recorded; outside `OUT` it is mode misuse (R134). -/
def pinWrite (L : Line) (b : Bool) (s : State) : Except Fault State :=
  if s.mode.get L = .out then .ok (record (.write L b) { s with lat := s.lat.set L b })
  else .error .pinModeMisuse

/-- The `k`-th of the environment's coming answers (R37): scripted while `env` lasts, free after it, where `samples` is how
many samples were taken before. -/
def answerAt (env : List Bool) (samples k : Nat) : Bool :=
  match env[k]? with
  | some b => b
  | none => Config.envLevel (samples + k)

/-- The environment's answer to the `k`-th sample from now (R37). -/
def answer (s : State) : Nat → Bool := answerAt s.env s.samples

/-- The state after `k` samples were taken. -/
def dropAnswers (k : Nat) (s : State) : State := { s with env := s.env.drop k, samples := s.samples + k }

/-- `PinRead(L) -> b` (R133): the environment's answer, no state of the block changed; outside `IN` it is mode misuse (R134). -/
def pinRead (L : Line) (s : State) : Except Fault (Bool × State) :=
  if s.mode.get L = .inp then .ok (answer s 0, record (.sample L (answer s 0)) (dropAnswers 1 s))
  else .error .pinModeMisuse

/-! ### Delay -/

/-- `Delay(n)` (R152): `dly` is loaded with `n` and counted down to 0; nothing else can happen meanwhile, so the one
trace event `D(n)` and the counter's last value are all that is left of it. -/
def delay (n : Nat) (s : State) : State := record (.delay n) { s with dly := 0 }

/-! ### Responses: completion, refusal -/

/-- The operation completes: its result is presented and the block is idle (R35, R282). -/
def respond (st : Status) (data : Word) (s : State) : State := { s with rsp := ⟨st, data, true⟩, busy := false }

/-- The operation is refused: no state but the response changes, no pin event (R114, R286). -/
def refuse (s : State) : State := respond .refused 0 s

/-- An operation that only the owner `o` may use: refused to everyone else, before anything is done (R272 (a), R286). -/
def ownedBy (o : Owner) (s : State) (body : Except Fault State) : Except Fault State :=
  if s.owner = o then body else .ok (refuse s)

/-- The outcome of a step whose only way to stop is a fault. -/
def toOutcome : Except Fault State → Host.Outcome State Fault Refusal
  | .ok s => .next s
  | .error f => .fault f

/-! ### Clock request -/

/-- The body of TIM.SET_CLOCK (R153), shared by SWD.SET_CLOCK (R206) and JTAG.SET_CLOCK (R254): the range test first
(R272 (d)), then the division, which has no value at 0 Hz (R156). -/
def setClock (hz : Word) (s : State) : Except Fault State :=
  if s.cpuFreq ≤ hz then .ok (respond .clockRejected 0 s)
  else if hz = 0 then .error .divideByZero
  else .ok (respond .ok 0 { s with maxFreq := hz, halfPeriod := halfPeriodOf s.cpuFreq hz })

/-! ### Bit routines -/

/-- `SwjOutBit(b)` (R174): clock low, data, delay, clock high, delay. -/
def swjOutBit (b : Bool) (s : State) : Except Fault State := do
  let s ← pinWrite .clk false s
  let s ← pinWrite .dio b s
  let s := delay s.halfPeriod.toNat s
  let s ← pinWrite .clk true s
  pure (delay s.halfPeriod.toNat s)

/-- `EngOutBit(b)` (R190): data, clock low, delay, clock high, delay. -/
def engOutBit (b : Bool) (s : State) : Except Fault State := do
  let s ← pinWrite .dio b s
  let s ← pinWrite .clk false s
  let s := delay s.halfPeriod.toNat s
  let s ← pinWrite .clk true s
  pure (delay s.halfPeriod.toNat s)

/-- `EngInBit() -> b` (R191): clock low, delay, sample, clock high, delay. -/
def engInBit (s : State) : Except Fault (Bool × State) := do
  let s ← pinWrite .clk false s
  let s := delay s.halfPeriod.toNat s
  let (b, s) ← pinRead .dio s
  let s ← pinWrite .clk true s
  pure (b, delay s.halfPeriod.toNat s)

/-- The loop of SEND_BITS with `k` bits still to clock: the bit sent is the one `bitcnt` names (R192). -/
def sendLoop (v : Word) : Nat → State → Except Fault State
  | 0, s => .ok s
  | k + 1, s => do
    let s ← engOutBit (v.getLsbD s.bitcnt.toNat) s
    sendLoop v k { s with bitcnt := s.bitcnt + 1 }

/-- `SendBits(n, v)` (R192). -/
def sendBits (n : Nat) (v : Word) (s : State) : Except Fault State :=
  sendLoop v n { setMode .dio .out s with bitcnt := 0 }

/-- The loop of RECV_BITS with `k` bits still to clock: the bit received enters the value at `bitcnt` (R193). -/
def recvLoop : Nat → Word → State → Except Fault (Word × State)
  | 0, v, s => .ok (v, s)
  | k + 1, v, s => do
    let (b, s) ← engInBit s
    recvLoop k (putBit v s.bitcnt.toNat b) { s with bitcnt := s.bitcnt + 1 }

/-- `RecvBits(n) -> v` (R193). -/
def recvBits (n : Nat) (s : State) : Except Fault (Word × State) :=
  recvLoop n 0 { setMode .dio .inp s with bitcnt := 0 }

/-- The loop of SWJ.CLOCK_SEQUENCE with `k` bits still to clock, the next being bit `i`: `bitcnt` counts the bits of the
current byte (R30, R173; DEDUCED, log 14). -/
def swjLoop (bytes : List Byte) : Nat → Nat → State → Except Fault State
  | 0, _, s => .ok s
  | k + 1, i, s => do
    let s ← swjOutBit (seqBit bytes i) { s with bitcnt := BitVec.ofNat 6 (i % 8) }
    swjLoop bytes k (i + 1) { s with bitcnt := BitVec.ofNat 6 (i % 8 + 1) }

/-! ### The bus -/

/-- CLK and DIO in `OUT` mode, CLK first (R195, R173, D26). -/
def driveBus (s : State) : State := setMode .dio .out (setMode .clk .out s)

/-- CLK and DIO floated, CLK first (R196, R252, R258, R173, D26). -/
def floatBus (s : State) : State := setMode .dio .inp (setMode .clk .inp s)

/-! ### Pieces of a transaction -/

/-- Clock cycles of the ACK phase of a read: 1 turnaround and 3 ACK bits (R6, R98). -/
def ackReadClocks : Nat := 4

/-- Clock cycles of the ACK phase of a write: 1 turnaround, 3 ACK bits, 1 turnaround (R6, R98). -/
def ackWriteClocks : Nat := 5

/-- Low bits driven after a non-OK ACK (R6, R106). -/
def flushBits : Nat := 4

/-- Trailing bits after a data phase (R6, R105). -/
def trailBits : Nat := 8

/-- A transaction opens: CLK is driven, the request byte is built and sent in phase `RequestSent` (R94, R201, R204). -/
def openRequest (apndp rnw : Bool) (a : BitVec 2) (s : State) : Except Fault State :=
  let s := setMode .clk .out s
  let s := { s with req := makeRequest apndp rnw a, phase := .requestSent }
  sendBits 8 (s.req.setWidth 32) s

/-- The ACK phase of `clocks` bits: the value received lies in the low bits of `shreg` (R32; DEDUCED, log 13) and the ACK
code is taken out of it (R98, R100). -/
def ackPhase (clocks : Nat) (s : State) : Except Fault State := do
  let (v, s) ← recvBits clocks { s with phase := .ackPhase }
  pure { s with shreg := v, ack := ackOf v }

/-- `Flush()` (R202): exactly 4 low bits, then the data line floats. -/
def flush (s : State) : Except Fault State := do
  let s ← sendBits flushBits 0 s
  pure (setMode .dio .inp s)

/-- A transaction ends in the ACK error its `ack` stands for: the flush in phase `ErrorFlush`, then `Idle`, then the error as
the response (R202, R274, R277). The one exception entry of this block; nothing is saved (R276). -/
def ackError (s : State) : Except Fault State := do
  let s ← flush { s with phase := .errorFlush }
  pure (respond (ackErrorStatus s.ack) 0 { s with phase := .idle })

/-- The data phase of a read: 32 data bits into `shreg`, one parity bit into `par` (R102, R201). -/
def receiveData (s : State) : Except Fault State := do
  let (w, s) ← recvBits 32 { s with phase := .dataPhase }
  let s := { s with shreg := w }
  let (p, s) ← recvBits 1 s
  pure { s with par := p.getLsbD 0 }

/-- The data phase of a write: `shreg` and `par` are loaded, 32 data bits and one parity bit are sent (R102, R204). -/
def sendData (data : Word) (s : State) : Except Fault State := do
  let s := { s with shreg := data, par := parity32 data, phase := .dataSend }
  let s ← sendBits 32 s.shreg s
  sendBits 1 ((BitVec.ofBool s.par).setWidth 32) s

/-- The 8 trailing bits, all driven low (R105). -/
def trailing (s : State) : Except Fault State := sendBits trailBits 0 { s with phase := .trailingIdle }

/-- The end of a read's data phase: the data line is driven low once more, the phase returns to `Idle`, and the parity
decides between the word and `BadParity` (R201, R203). -/
def finishRead (s : State) : Except Fault State := do
  let s ← pinWrite .dio false s
  let s := { s with phase := .idle }
  if s.par = parity32 s.shreg then pure (respond .ok s.shreg s) else pure (respond .badParity 0 s)

end Sys2Proof.Machine
end

