-- ==== Sys2Proof/Machine/Jtag.lean ====
section
/-! DEFINITION. The JTAG stub and SUSPEND (44_jtag_stub_and_suspend.md). -/

namespace Sys2Proof.Machine

/-- JTAG.AVAILABLE (R250): the constant answer, in every owner state. -/
def execJtagAvailable (s : State) : Host.Outcome State Fault Refusal :=
  .next (respond .unavailable 0 s)

/-- JTAG.ACQUIRE (R251): no line changes. -/
def execJtagAcquire (s : State) : Host.Outcome State Fault Refusal :=
  toOutcome (ownedBy .free s (.ok (respond .ok 0 { s with owner := .jtag })))

/-- JTAG.RELEASE (R252). -/
def execJtagRelease (s : State) : Host.Outcome State Fault Refusal :=
  toOutcome (ownedBy .jtag s (.ok (respond .ok 0 { floatBus s with owner := .free })))

/-- JTAG.SEQUENCES (R253): both operands are ignored and the number of bits consumed is 0. -/
def execJtagSequences (_bitCount : Word) (_bytes : List Byte) (s : State) : Host.Outcome State Fault Refusal :=
  toOutcome (ownedBy .jtag s (.ok (respond .ok 0 s)))

/-- JTAG.SET_CLOCK (R254). -/
def execJtagSetClock (hz : Word) (s : State) : Host.Outcome State Fault Refusal :=
  toOutcome (ownedBy .jtag s (setClock hz s))

/-- SUSPEND (R258): CLK and DIO float and nobody holds the bus, from every owner state. -/
def execSuspend (s : State) : Host.Outcome State Fault Refusal :=
  .next (respond .ok 0 { floatBus s with owner := .free })

end Sys2Proof.Machine
end

