-- ==== Sys2Proof/Machine/Pin.lean ====
section
/-! DEFINITION. The Pin Controller's three micro-operations (40_pin_controller.md). -/

namespace Sys2Proof.Machine

/-- PIN.SET_MODE (R131). -/
def execPinSetMode (L : Line) (m : Mode) (s : State) : Host.Outcome State Fault Refusal :=
  .next (setMode L m s)

/-- PIN.WRITE (R132, R134). -/
def execPinWrite (L : Line) (b : Bool) (s : State) : Host.Outcome State Fault Refusal :=
  toOutcome (pinWrite L b s)

/-- PIN.READ (R133, R134). The level read is the one the trace event `S(L) = b` holds (log 17). -/
def execPinRead (L : Line) (s : State) : Host.Outcome State Fault Refusal :=
  toOutcome (do
    let (_, s) ← pinRead L s
    pure s)

end Sys2Proof.Machine
end

