-- ==== Sys2Proof/Machine/Reserved.lean ====
section
/-! DEFINITION. The ten codes that name no operation (R114 (a)): each is answered `Refused` and changes nothing else. -/

namespace Sys2Proof.Machine

/-- The reserved code 0b01111 (R114 (a)). -/
def execReserved01111 (s : State) : Host.Outcome State Fault Refusal := .next (refuse s)

/-- The unused code 0b10111 (R114 (a)). -/
def execUnused10111 (s : State) : Host.Outcome State Fault Refusal := .next (refuse s)

/-- The unused code 0b11000 (R114 (a)). -/
def execUnused11000 (s : State) : Host.Outcome State Fault Refusal := .next (refuse s)

/-- The unused code 0b11001 (R114 (a)). -/
def execUnused11001 (s : State) : Host.Outcome State Fault Refusal := .next (refuse s)

/-- The unused code 0b11010 (R114 (a)). -/
def execUnused11010 (s : State) : Host.Outcome State Fault Refusal := .next (refuse s)

/-- The unused code 0b11011 (R114 (a)). -/
def execUnused11011 (s : State) : Host.Outcome State Fault Refusal := .next (refuse s)

/-- The unused code 0b11100 (R114 (a)). -/
def execUnused11100 (s : State) : Host.Outcome State Fault Refusal := .next (refuse s)

/-- The unused code 0b11101 (R114 (a)). -/
def execUnused11101 (s : State) : Host.Outcome State Fault Refusal := .next (refuse s)

/-- The unused code 0b11110 (R114 (a)). -/
def execUnused11110 (s : State) : Host.Outcome State Fault Refusal := .next (refuse s)

/-- The unused code 0b11111 (R114 (a)). -/
def execUnused11111 (s : State) : Host.Outcome State Fault Refusal := .next (refuse s)

end Sys2Proof.Machine
end

