-- ==== Sys2Proof/Machine/Swd.lean ====
section
/-! DEFINITION. The SWD Transaction Engine (43_swd_engine.md): the two bit micro-operations, acquire and release, read, write,
configure, set clock. -/

namespace Sys2Proof.Machine

/-- SEND_BITS (R192). -/
def execSendBits (n : Nat) (v : Word) (s : State) : Host.Outcome State Fault Refusal :=
  toOutcome (sendBits n v s)

/-- RECV_BITS (R193): the value received is left in `shreg` (R32; DEDUCED, log 13). -/
def execRecvBits (n : Nat) (s : State) : Host.Outcome State Fault Refusal :=
  toOutcome (do
    let (v, s) ← recvBits n s
    pure { s with shreg := v })

/-- SWD.ACQUIRE (R195): no latch is written. -/
def execSwdAcquire (s : State) : Host.Outcome State Fault Refusal :=
  toOutcome (ownedBy .free s (.ok (respond .ok 0 (driveBus { s with owner := .swd }))))

/-- SWD.RELEASE (R196). -/
def execSwdRelease (s : State) : Host.Outcome State Fault Refusal :=
  toOutcome (ownedBy .swd s (.ok (respond .ok 0 { floatBus s with owner := .free })))

/-- The body of SWD.READ (R201): request, ACK phase, then the data phase or the flush. -/
def swdRead (apndp : Bool) (a : BitVec 2) (s : State) : Except Fault State := do
  let s ← openRequest apndp true a s
  let s ← ackPhase ackReadClocks s
  if s.ack = ackOkCode then
    let s ← receiveData s
    let s ← trailing s
    finishRead s
  else ackError s

/-- SWD.READ (R201, R286). -/
def execSwdRead (apndp : Bool) (a : BitVec 2) (s : State) : Host.Outcome State Fault Refusal :=
  toOutcome (ownedBy .swd s (swdRead apndp a s))

/-- The body of SWD.WRITE (R204): request, ACK phase with its second turnaround, then the data phase or the flush. -/
def swdWrite (apndp : Bool) (a : BitVec 2) (data : Word) (s : State) : Except Fault State := do
  let s ← openRequest apndp false a s
  let s ← ackPhase ackWriteClocks s
  if s.ack = ackOkCode then
    let s ← sendData data s
    let s ← trailing s
    pure (respond .ok 0 { s with phase := .idle })
  else ackError s

/-- SWD.WRITE (R204, R286). -/
def execSwdWrite (apndp : Bool) (a : BitVec 2) (data : Word) (s : State) : Host.Outcome State Fault Refusal :=
  toOutcome (ownedBy .swd s (swdWrite apndp a data s))

/-- SWD.CONFIGURE (R205): the operands are compared with the hard-wired configuration (R36); nothing is written. -/
def execSwdConfigure (trn : BitVec 2) (dph : Bool) (s : State) : Host.Outcome State Fault Refusal :=
  toOutcome (ownedBy .swd s
    (if trn = s.trnCfg ∧ dph = s.dphCfg then .ok (respond .ok 0 s)
     else .ok (respond .unsupportedConfiguration 0 s)))

/-- SWD.SET_CLOCK (R206). -/
def execSwdSetClock (hz : Word) (s : State) : Host.Outcome State Fault Refusal :=
  toOutcome (ownedBy .swd s (setClock hz s))

end Sys2Proof.Machine
end

