-- ==== Sys2Proof/Machine/Swj.lean ====
section
/-! DEFINITION. The Line-Level Transport (42_swj_line_transport.md): SWJ.DRIVE and SWJ.CLOCK_SEQUENCE, permitted in every
owner state (R170, R286). -/

namespace Sys2Proof.Machine

/-- A push-pull line of SWJ.DRIVE: driven to its level where the mask selects it (R171). -/
def drivePushPull (L : Line) (selected level : Bool) (s : State) : Except Fault State :=
  if selected then pinWrite L level (setMode L .out s) else .ok s

/-- The open-drain reset line of SWJ.DRIVE: high is `DIS` with no write, low is `OUT` and a written 0 (R172). -/
def driveReset (selected level : Bool) (s : State) : Except Fault State :=
  if selected then
    if level then .ok (setMode .rst .dis s) else pinWrite .rst false (setMode .rst .out s)
  else .ok s

/-- SWJ.DRIVE (R171) for any mask positions (R65): drive CLK, DIO, RST, wait, float all three, sample all three, answer the
sampled mask. -/
def swjDrive (B : MaskBits) (levels mask : Byte) (settleUs : Word) (s : State) : Except Fault State := do
  let s ← drivePushPull .clk (lineBit B mask .clk) (lineBit B levels .clk) s
  let s ← drivePushPull .dio (lineBit B mask .dio) (lineBit B levels .dio) s
  let s ← driveReset (lineBit B mask .rst) (lineBit B levels .rst) s
  let s := delay (settleCycles settleUs s.cyclesPerUs) s
  let s := setMode .rst .inp (setMode .dio .inp (setMode .clk .inp s))
  let (c, s) ← pinRead .clk s
  let (d, s) ← pinRead .dio s
  let (r, s) ← pinRead .rst s
  pure (respond .ok ((lineMask B c d r).setWidth 32) s)

/-- SWJ.DRIVE, at the decided mask positions. -/
def execSwjDrive (levels mask : Byte) (settleUs : Word) (s : State) : Host.Outcome State Fault Refusal :=
  toOutcome (swjDrive maskBits levels mask settleUs s)

/-- SWJ.CLOCK_SEQUENCE (R173): both lines driven, `min(bit_count, 8 * len)` bits clocked, both lines floated. -/
def swjClockSequence (bitCount : Word) (bytes : List Byte) (s : State) : Except Fault State := do
  let s ← swjLoop bytes (seqLength bitCount bytes) 0 { driveBus s with bitcnt := 0 }
  pure (respond .ok 0 (floatBus s))

/-- SWJ.CLOCK_SEQUENCE. -/
def execSwjClockSequence (bitCount : Word) (bytes : List Byte) (s : State) : Host.Outcome State Fault Refusal :=
  toOutcome (swjClockSequence bitCount bytes s)

end Sys2Proof.Machine
end

