-- ==== Sys2Proof/Machine/Timing.lean ====
section
/-! DEFINITION. The Timing Controller (41_timing_controller.md): TIM.CONFIGURE, TIM.DELAY, TIM.SET_CLOCK. -/

namespace Sys2Proof.Machine

/-- TIM.CONFIGURE (R151). The constraint `0 < max < cpu` is on the parameters; it is not checked at run time and there is no
error (R151, D5). -/
def execTimConfigure (cpu max : Word) (s : State) : Host.Outcome State Fault Refusal :=
  .next { s with
    cpuFreq := cpu
    maxFreq := max
    cyclesPerUs := cyclesPerUsOf cpu
    halfPeriod := configuredHalfPeriod cpu max }

/-- TIM.DELAY (R152). -/
def execTimDelay (n : Nat) (s : State) : Host.Outcome State Fault Refusal :=
  .next (delay n s)

/-- TIM.SET_CLOCK (R153, R156): permitted in every owner state (R286). -/
def execTimSetClock (hz : Word) (s : State) : Host.Outcome State Fault Refusal :=
  toOutcome (setClock hz s)

end Sys2Proof.Machine
end

