-- ==== Sys2Proof/Machine/Wire.lean ====
section
/-! DEFINITION. The wire frames of spec/opcode_table.json, each with what the block does for it in a transaction (R107, R200):
the request it sends, the ACK phase it receives, what an ACK code makes it do (log 9). -/

namespace Sys2Proof.Machine

/-- The bits of an `n`-bit value, first received first (R63). -/
def bitsOf {n : Nat} (v : BitVec n) : List Bool := (List.range n).map v.getLsbD

/-- WIRE.REQUEST_READ: a read transaction opens and its request byte is sent (R94 to R96, R201). -/
def execWireRequestRead (apndp : Bool) (a : BitVec 2) (s : State) : Host.Outcome State Fault Refusal :=
  toOutcome (openRequest apndp true a s)

/-- WIRE.REQUEST_WRITE: a write transaction opens and its request byte is sent (R94 to R96, R204). -/
def execWireRequestWrite (apndp : Bool) (a : BitVec 2) (s : State) : Host.Outcome State Fault Refusal :=
  toOutcome (openRequest apndp false a s)

/-- WIRE.ACKPHASE_READ: the environment answers the 4 samples of a read's ACK phase with the bits of `v` (R98, R100). -/
def execWireAckphaseRead (v : BitVec 4) (s : State) : Host.Outcome State Fault Refusal :=
  toOutcome (ackPhase ackReadClocks { s with env := bitsOf v ++ s.env })

/-- WIRE.ACKPHASE_WRITE: the environment answers the 5 samples of a write's ACK phase with the bits of `v` (R98, R100). -/
def execWireAckphaseWrite (v : BitVec 5) (s : State) : Host.Outcome State Fault Refusal :=
  toOutcome (ackPhase ackWriteClocks { s with env := bitsOf v ++ s.env })

/-- WIRE.ACK_OK: the transaction goes on to its data phase, of the direction its request asked for (R101, R200). -/
def execWireAckOk (s : State) : Host.Outcome State Fault Refusal :=
  .next { s with
    ack := ackOkCode
    phase := if requestRnw s.req then .dataPhase else .dataSend }

/-- WIRE.ACK_WAIT: the transaction ends in `AckWait` after the flush (R101, R202). -/
def execWireAckWait (s : State) : Host.Outcome State Fault Refusal :=
  toOutcome (ackError { s with ack := ackWaitCode })

/-- WIRE.ACK_FAULT: the transaction ends in `AckFault` after the flush (R101, R202). -/
def execWireAckFault (s : State) : Host.Outcome State Fault Refusal :=
  toOutcome (ackError { s with ack := ackFaultCode })

end Sys2Proof.Machine
end

