-- ==== Sys2Proof/Machine/Dispatch.lean ====
section
/-! DEFINITION. One arm per operation: the meaning of each, by name. -/

namespace Sys2Proof.Machine

def exec (i : Instr) (s : State) : Host.Outcome State Fault Refusal :=
  match i with
  | .suspend => Sys2Proof.Machine.execSuspend s
  | .timSetClock hz => Sys2Proof.Machine.execTimSetClock hz s
  | .swjDrive levels mask settleUs => Sys2Proof.Machine.execSwjDrive levels mask settleUs s
  | .swjClockSequence bitCount bytes => Sys2Proof.Machine.execSwjClockSequence bitCount bytes s
  | .swdAcquire => Sys2Proof.Machine.execSwdAcquire s
  | .swdRelease => Sys2Proof.Machine.execSwdRelease s
  | .swdRead apndp a => Sys2Proof.Machine.execSwdRead apndp a s
  | .swdWrite apndp a data => Sys2Proof.Machine.execSwdWrite apndp a data s
  | .swdConfigure trn dph => Sys2Proof.Machine.execSwdConfigure trn dph s
  | .swdSetClock hz => Sys2Proof.Machine.execSwdSetClock hz s
  | .jtagAvailable => Sys2Proof.Machine.execJtagAvailable s
  | .jtagAcquire => Sys2Proof.Machine.execJtagAcquire s
  | .jtagRelease => Sys2Proof.Machine.execJtagRelease s
  | .jtagSequences bitCount bytes => Sys2Proof.Machine.execJtagSequences bitCount bytes s
  | .jtagSetClock hz => Sys2Proof.Machine.execJtagSetClock hz s
  | .reserved01111 => Sys2Proof.Machine.execReserved01111 s
  | .pinSetMode line mode => Sys2Proof.Machine.execPinSetMode line mode s
  | .pinWrite line level => Sys2Proof.Machine.execPinWrite line level s
  | .pinRead line => Sys2Proof.Machine.execPinRead line s
  | .timConfigure cpu max => Sys2Proof.Machine.execTimConfigure cpu max s
  | .timDelay n => Sys2Proof.Machine.execTimDelay n s
  | .sendBits n v => Sys2Proof.Machine.execSendBits n v s
  | .recvBits n => Sys2Proof.Machine.execRecvBits n s
  | .unused10111 => Sys2Proof.Machine.execUnused10111 s
  | .unused11000 => Sys2Proof.Machine.execUnused11000 s
  | .unused11001 => Sys2Proof.Machine.execUnused11001 s
  | .unused11010 => Sys2Proof.Machine.execUnused11010 s
  | .unused11011 => Sys2Proof.Machine.execUnused11011 s
  | .unused11100 => Sys2Proof.Machine.execUnused11100 s
  | .unused11101 => Sys2Proof.Machine.execUnused11101 s
  | .unused11110 => Sys2Proof.Machine.execUnused11110 s
  | .unused11111 => Sys2Proof.Machine.execUnused11111 s
  | .wireRequestRead apndp a => Sys2Proof.Machine.execWireRequestRead apndp a s
  | .wireRequestWrite apndp a => Sys2Proof.Machine.execWireRequestWrite apndp a s
  | .wireAckphaseRead v => Sys2Proof.Machine.execWireAckphaseRead v s
  | .wireAckphaseWrite v => Sys2Proof.Machine.execWireAckphaseWrite v s
  | .wireAckOk => Sys2Proof.Machine.execWireAckOk s
  | .wireAckWait => Sys2Proof.Machine.execWireAckWait s
  | .wireAckFault => Sys2Proof.Machine.execWireAckFault s

end Sys2Proof.Machine
end

