-- ==== Sys2Proof/WellFormed.lean ====
section
/-! DEFINITION. Which operations are in the range the spec gives their operands. Operands that are bit vectors of the port's
width are always legal (R62, R67, R93); only the counts and values of the micro-operations have a range of their own. -/

namespace Sys2Proof

/-- The operand ranges of R152 and R157 (a delay fits the 64-bit counter), R192 (`n` in 0..32, `v` an `n`-bit value) and
R193 (`n` in 0..32). -/
def wellFormed : Instr → Bool
  | .timDelay n => decide (n < 2 ^ 64)
  | .sendBits n v => decide (n ≤ 32) && decide (v.toNat < 2 ^ n)
  | .recvBits n => decide (n ≤ 32)
  | .suspend | .timSetClock _ | .swjDrive _ _ _ | .swjClockSequence _ _ => true
  | .swdAcquire | .swdRelease | .swdRead _ _ | .swdWrite _ _ _ | .swdConfigure _ _ | .swdSetClock _ => true
  | .jtagAvailable | .jtagAcquire | .jtagRelease | .jtagSequences _ _ | .jtagSetClock _ => true
  | .reserved01111 | .pinSetMode _ _ | .pinWrite _ _ | .pinRead _ | .timConfigure _ _ => true
  | .unused10111 | .unused11000 | .unused11001 | .unused11010 | .unused11011 => true
  | .unused11100 | .unused11101 | .unused11110 | .unused11111 => true
  | .wireRequestRead _ _ | .wireRequestWrite _ _ | .wireAckphaseRead _ | .wireAckphaseWrite _ => true
  | .wireAckOk | .wireAckWait | .wireAckFault => true

/-- `i` is well formed. -/
abbrev WellFormed (i : Instr) : Prop := wellFormed i = true

end Sys2Proof
end

