-- ==== Sys2Proof/Decode.lean ====
section
/-! DEFINITION. The decoder (total on any frame, rejecting by name), the encoder written from the same rules, and the numbering
of spec/opcode_table.json. A frame is what carries an operation: the command port's signals (R44, R91, R92), the sequencer's
micro-operation register (R91, format `MI`), or bits on the data line (R94, R98, R101). -/

namespace Sys2Proof

/-- Why a frame encodes no operation. -/
inductive DecodeError where
  /-- A code 0b10000 to 0b10110 on the command port (R114 (b)): the port answers `Refused`. -/
  | internalOnCommandPort
  /-- A code in the micro-operation register that is not 0b10000 to 0b10110 (R91, R92). -/
  | notMicroOperation
  /-- A line code that names no line. -/
  | lineCode
  /-- The mode code 0b11, which never occurs (R22). -/
  | modeCode
  /-- A bit count above 32 (R192, R193). -/
  | bitCountRange
  /-- A request byte with a 0 start bit, a 1 stop bit or a 0 park bit (R94, R114 (g)). -/
  | requestShape
  /-- A request byte with wrong parity (R95, R114 (g)). -/
  | requestParity
  /-- A 3-bit ACK code that no row of the table names: no response (R101). The block takes the flush and the error
  `AckNoResponse` for it, as it does in a transaction. -/
  | ackNoResponse (code : BitVec 3)
  deriving DecidableEq, Repr

/-! ### Codes of the operands -/

/-- The mode code of the pin port (R22): `DIS` 0b00, `IN` 0b01, `OUT` 0b10. -/
def modeCode : Mode → BitVec 2
  | .dis => 0b00
  | .inp => 0b01
  | .out => 0b10

/-- The mode a code names; 0b11 never occurs (R22). -/
def modeOfCode (c : BitVec 2) : Except DecodeError Mode :=
  if c = 0b00 then .ok .dis else if c = 0b01 then .ok .inp else if c = 0b10 then .ok .out else .error .modeCode

/-- The line code of the micro-operation register: CLK 0, DIO 1, RST 2.
DESIGN CHOICE (log 8): the spec numbers no line there. Safe. -/
def lineCode : Line → BitVec 2
  | .clk => 0
  | .dio => 1
  | .rst => 2

/-- The line a code names. -/
def lineOfCode (c : BitVec 2) : Except DecodeError Line :=
  if c = 0 then .ok .clk else if c = 1 then .ok .dio else if c = 2 then .ok .rst else .error .lineCode

/-! ### The decoder -/

/-- The operation offered on the command port (R91, R92, R114): 15 external operations, the codes that name none, and the
internal codes, which are not operations of this port. -/
def decodeCommand (p : CmdPort) : Except DecodeError Instr :=
  match p.op.toNat with
  | 0 => .ok .suspend
  | 1 => .ok (.timSetClock p.word)
  | 2 => .ok (.swjDrive p.out p.mask p.word)
  | 3 => .ok (.swjClockSequence p.bitCount p.bytes)
  | 4 => .ok .swdAcquire
  | 5 => .ok .swdRelease
  | 6 => .ok (.swdRead p.apndp p.a)
  | 7 => .ok (.swdWrite p.apndp p.a p.word)
  | 8 => .ok (.swdConfigure p.trn p.dph)
  | 9 => .ok (.swdSetClock p.word)
  | 10 => .ok .jtagAvailable
  | 11 => .ok .jtagAcquire
  | 12 => .ok .jtagRelease
  | 13 => .ok (.jtagSequences p.bitCount p.bytes)
  | 14 => .ok (.jtagSetClock p.word)
  | 15 => .ok .reserved01111
  | 23 => .ok .unused10111
  | 24 => .ok .unused11000
  | 25 => .ok .unused11001
  | 26 => .ok .unused11010
  | 27 => .ok .unused11011
  | 28 => .ok .unused11100
  | 29 => .ok .unused11101
  | 30 => .ok .unused11110
  | 31 => .ok .unused11111
  | _ => .error .internalOnCommandPort

/-- The bit count of SEND_BITS and RECV_BITS (R192, R193). -/
def bitCountOf (c : BitVec 64) : Except DecodeError Nat :=
  if c.toNat ≤ 32 then .ok c.toNat else .error .bitCountRange

/-- The low `n` bits of the value port: SEND_BITS has an `n`-bit operand and the port 32 (R192). -/
def lowBits (n : Nat) (v : Word) : Word := BitVec.ofNat 32 (v.toNat % 2 ^ n)

/-- The micro-operation in the sequencer's register (R91, R92, codes 0b10000 to 0b10110). -/
def decodeMicro (m : MicroPort) : Except DecodeError Instr :=
  match m.op.toNat with
  | 16 =>
    match lineOfCode m.line with
    | .error e => .error e
    | .ok L =>
      match modeOfCode m.mode with
      | .error e => .error e
      | .ok md => .ok (.pinSetMode L md)
  | 17 =>
    match lineOfCode m.line with
    | .error e => .error e
    | .ok L => .ok (.pinWrite L m.level)
  | 18 =>
    match lineOfCode m.line with
    | .error e => .error e
    | .ok L => .ok (.pinRead L)
  | 19 => .ok (.timConfigure m.cpu m.max)
  | 20 => .ok (.timDelay m.count.toNat)
  | 21 =>
    match bitCountOf m.count with
    | .error e => .error e
    | .ok n => .ok (.sendBits n (lowBits n m.value))
  | 22 =>
    match bitCountOf m.count with
    | .error e => .error e
    | .ok n => .ok (.recvBits n)
  | _ => .error .notMicroOperation

/-- The request byte on the data line (R94, R95): start 1, stop 0, park 1, then the operands, then their parity. -/
def decodeRequest (b : BitVec 8) : Except DecodeError Instr :=
  let apndp := b.getLsbD 1
  let rnw := b.getLsbD 2
  let a := b.extractLsb' 3 2
  if b.getLsbD 0 && !b.getLsbD 6 && b.getLsbD 7 then
    if b.getLsbD 5 = Machine.requestParity apndp rnw a then
      if rnw then .ok (.wireRequestRead apndp a) else .ok (.wireRequestWrite apndp a)
    else .error .requestParity
  else .error .requestShape

/-- A 3-bit ACK code (R101). -/
def decodeAck (c : BitVec 3) : Except DecodeError Instr :=
  if c = Machine.ackOkCode then .ok .wireAckOk
  else if c = Machine.ackWaitCode then .ok .wireAckWait
  else if c = Machine.ackFaultCode then .ok .wireAckFault
  else .error (.ackNoResponse c)

/-- What the sequencer itself issues. -/
def decodeInternal : SeqFrame → Except DecodeError Instr
  | .micro m => decodeMicro m
  | .request b => decodeRequest b
  | .ackRead v => .ok (.wireAckphaseRead v)
  | .ackWrite v => .ok (.wireAckphaseWrite v)
  | .ack c => decodeAck c

/-- The decoder. -/
def decode : Frame → Except DecodeError Instr
  | .command p => decodeCommand p
  | .internal f => decodeInternal f

/-! ### The encoder -/

/-- The frame of an operation, from the formats of R91, the codes of R92, the request layout of R96 and the codes of R101. -/
def encode : Instr → Frame
  | .suspend => .command { op := 0b00000 }
  | .timSetClock hz => .command { op := 0b00001, word := hz }
  | .swjDrive o m t => .command { op := 0b00010, out := o, mask := m, word := t }
  | .swjClockSequence n bs => .command { op := 0b00011, bitCount := n, bytes := bs }
  | .swdAcquire => .command { op := 0b00100 }
  | .swdRelease => .command { op := 0b00101 }
  | .swdRead ap a => .command { op := 0b00110, apndp := ap, a := a }
  | .swdWrite ap a d => .command { op := 0b00111, apndp := ap, a := a, word := d }
  | .swdConfigure t d => .command { op := 0b01000, trn := t, dph := d }
  | .swdSetClock hz => .command { op := 0b01001, word := hz }
  | .jtagAvailable => .command { op := 0b01010 }
  | .jtagAcquire => .command { op := 0b01011 }
  | .jtagRelease => .command { op := 0b01100 }
  | .jtagSequences n bs => .command { op := 0b01101, bitCount := n, bytes := bs }
  | .jtagSetClock hz => .command { op := 0b01110, word := hz }
  | .reserved01111 => .command { op := 0b01111 }
  | .pinSetMode L m => .internal (.micro { op := 0b10000, line := lineCode L, mode := modeCode m })
  | .pinWrite L b => .internal (.micro { op := 0b10001, line := lineCode L, level := b })
  | .pinRead L => .internal (.micro { op := 0b10010, line := lineCode L })
  | .timConfigure c m => .internal (.micro { op := 0b10011, cpu := c, max := m })
  | .timDelay n => .internal (.micro { op := 0b10100, count := BitVec.ofNat 64 n })
  | .sendBits n v => .internal (.micro { op := 0b10101, count := BitVec.ofNat 64 n, value := v })
  | .recvBits n => .internal (.micro { op := 0b10110, count := BitVec.ofNat 64 n })
  | .unused10111 => .command { op := 0b10111 }
  | .unused11000 => .command { op := 0b11000 }
  | .unused11001 => .command { op := 0b11001 }
  | .unused11010 => .command { op := 0b11010 }
  | .unused11011 => .command { op := 0b11011 }
  | .unused11100 => .command { op := 0b11100 }
  | .unused11101 => .command { op := 0b11101 }
  | .unused11110 => .command { op := 0b11110 }
  | .unused11111 => .command { op := 0b11111 }
  | .wireRequestRead ap a => .internal (.request (Machine.makeRequest ap true a))
  | .wireRequestWrite ap a => .internal (.request (Machine.makeRequest ap false a))
  | .wireAckphaseRead v => .internal (.ackRead v)
  | .wireAckphaseWrite v => .internal (.ackWrite v)
  | .wireAckOk => .internal (.ack Machine.ackOkCode)
  | .wireAckWait => .internal (.ack Machine.ackWaitCode)
  | .wireAckFault => .internal (.ack Machine.ackFaultCode)

/-! ### The numbering of spec/opcode_table.json -/

/-- The frame of an instruction whose bits are `w` in the table's numbering and whose operand ports are all 0. A row of 3 or
4 bits is an ACK code or the ACK phase of a read; a value below 32 is an operation code, offered on the command port unless
it is an internal one; any other byte is a request byte on the data line. DESIGN CHOICE (log 10): in whole bytes the ACK rows
have the same bits as operation codes 1, 2 and 4, and the operation codes win. Safe. -/
def tableFrame (nbits w : Nat) : Frame :=
  if nbits = 3 then .internal (.ack (BitVec.ofNat 3 w))
  else if nbits = 4 then .internal (.ackRead (BitVec.ofNat 4 w))
  else if w < 16 then .command { op := BitVec.ofNat 5 w }
  else if w < 23 then .internal (.micro { op := BitVec.ofNat 5 w })
  else if w < 32 then .command { op := BitVec.ofNat 5 w }
  else .internal (.request (BitVec.ofNat 8 w))

/-- What the decoder reads from an instruction whose bits are `w` in the table's numbering. -/
def decodeTableWord (nbits w : Nat) : Option Instr :=
  match decode (tableFrame nbits w) with
  | .ok i => some i
  | .error _ => none

end Sys2Proof
end

