-- ==== Sys2Proof/Machine/Fetch.lean ====
section
/-! DEFINITION. Which operation the block takes up next, and what it answers to a frame that encodes none. -/

namespace Sys2Proof.Machine

/-- The next frame and the state in which it is performed. What the sequencer itself issues comes first; otherwise, and only
when `busy` is 0, the oldest offer on the command port is accepted (R282): `busy` rises and the last result is no longer
presented (R35). Nothing to do, or an offer that must wait: none (R282, U20). -/
def fetch (s : State) : Option (Frame × State) :=
  match s.useq with
  | f :: rest => some (.internal f, { s with useq := rest })
  | [] =>
    if s.busy then none
    else
      match s.offers with
      | [] => none
      | p :: rest =>
        some (.command p, { s with offers := rest, busy := true, rsp := { s.rsp with valid := false } })

/-- What the block does with a frame that encodes no operation of the table. An internal code on the command port is refused
with status `Refused` (R114 (b)). A 3-bit ACK code that is none of the three is no response: the flush, then `AckNoResponse`
(R101, R202). Other bits in the sequencer's own register are sent nowhere and perform nothing: a request of the wrong shape or
parity is never put on the wire (R114 (g)), and a code, mode or count outside its rule names no micro-operation
(R22, R91, R92, R192, R193). DEDUCED (log 24). Unsafe; the block never holds such bits. -/
def onDecodeError (e : DecodeError) (s : State) : Host.Outcome State Fault Refusal :=
  match e with
  | .internalOnCommandPort => .next (refuse s)
  | .ackNoResponse code => toOutcome (ackError { s with ack := code })
  | .notMicroOperation | .lineCode | .modeCode | .bitCountRange => .next s
  | .requestShape | .requestParity => .next s

/-- `s` with a frame placed where `fetch` takes it next: an offer at the head of the command port of an idle block, or a frame
at the head of what the sequencer issues. -/
def placeFrame (f : Frame) (s : State) : State :=
  match f with
  | .command p => { s with useq := [], busy := false, offers := p :: s.offers }
  | .internal q => { s with useq := q :: s.useq }

end Sys2Proof.Machine
end

