-- ==== Sys2Proof/Machine/Step.lean ====
section
/-! DEFINITION. One step of the block: it takes up the next operation and performs it to its terminal state (R69, R282). -/

namespace Sys2Proof.Machine

/-- One step. With nothing to take up, the block waits, idle or busy, and nothing changes (R50, R282). -/
def step (s : State) : Host.Outcome State Fault Refusal :=
  match fetch s with
  | none => .next s
  | some (f, s') =>
    match decode f with
    | .ok i => exec i s'
    | .error e => onDecodeError e s'

/-- `s` with the instruction whose bits are `w` in the table's numbering placed where `step` takes its next one (log 10). -/
def State.withFetchWord (s : State) (nbits w : Nat) : State := placeFrame (tableFrame nbits w) s

end Sys2Proof.Machine
end

