-- ==== Sys2Proof/Machine/Ports.lean ====
section
/-! DEFINITION. The output ports of the block (R44) and what its modes do to the wire (R24), as views of State. -/

namespace Sys2Proof.Machine

/-- `L_oe`: the driver of line `L` is on (R44). -/
def outputEnable (s : State) (L : Line) : Bool := decide (s.mode.get L = .out)

/-- `L_ie`: the input path of line `L` is on (R44). -/
def inputEnable (s : State) (L : Line) : Bool := decide (s.mode.get L = .inp)

/-- `L_out`: the level the driver holds (R44). -/
def outputLevel (s : State) (L : Line) : Bool := s.lat.get L

/-- The level the block drives on line `L`, if it drives it (R24). -/
def drivenLevel (s : State) (L : Line) : Option Bool :=
  match s.mode.get L with
  | .out => some (s.lat.get L)
  | .inp => none
  | .dis => none

/-- The mode code on the pin port (R22, R44). -/
def modePort (s : State) (L : Line) : BitVec 2 := modeCode (s.mode.get L)

/-- `cmd_ready`: the block is idle and can accept an operation (R44, R282). -/
def cmdReady (s : State) : Bool := !s.busy

/-- The 4-bit code of a status (R112). -/
def statusCode : Status → BitVec 4
  | .ok => 0
  | .ackWait => 1
  | .ackFault => 2
  | .ackNoResponse => 3
  | .badParity => 4
  | .unsupportedConfiguration => 5
  | .clockRejected => 6
  | .refused => 7
  | .unavailable => 8

/-- `rsp_status` (R44, R112). -/
def rspStatus (s : State) : BitVec 4 := statusCode s.rsp.status

/-- `dbg_phase` (R29, R44). -/
def dbgPhase (s : State) : BitVec 3 :=
  match s.phase with
  | .idle => 0
  | .requestSent => 1
  | .ackPhase => 2
  | .dataPhase => 3
  | .dataSend => 4
  | .trailingIdle => 5
  | .errorFlush => 6

/-- `dbg_owner` (R44). -/
def dbgOwner (s : State) : BitVec 2 :=
  match s.owner with
  | .free => 0
  | .swd => 1
  | .jtag => 2

end Sys2Proof.Machine
end

