-- ==== Sys2Proof/Machine/Run.lean ====
section
/-! DEFINITION. Runs of the block (R325): what a run is given, the state it starts in, the responses it collects, when it has
ended. -/

namespace Sys2Proof.Machine

/-- The parameter of a run (R325): the operations the caller offers, each with its operands, and the environment's answers. -/
structure RunInput where
  ops     : List CmdPort
  answers : List Bool
  deriving DecidableEq, Repr

/-- What a claim may observe of a run (R325): the responses, one per operation, in order; and the state it leads to, whose
`trace` is the wire trace. -/
structure RunResult where
  responses : List Rsp
  final     : State
  deriving DecidableEq, Repr

/-- `s` at the start of a run: the caller holds the whole list, the environment all its answers (R325, log 7). -/
def launch (r : RunInput) (s : State) : State := { s with offers := r.ops, env := r.answers }

/-- `k` steps from `s`, collecting the response each leaves; a fault ends it with no result: such a run never ends (R325). -/
def collect : Nat → State → Host.Outcome RunResult Fault Refusal
  | 0, s => .next ⟨[], s⟩
  | k + 1, s =>
    match step s with
    | .fault f => .fault f
    | .refused r => .refused r
    | .next t =>
      match collect k t with
      | .fault f => .fault f
      | .refused r => .refused r
      | .next q => .next { q with responses := t.rsp :: q.responses }

/-- The run of `r` from `s`: one step per operation (log 1). -/
def runFrom (r : RunInput) (s : State) : Host.Outcome RunResult Fault Refusal := collect r.ops.length (launch r s)

/-- A run of the block: from the reset state of R50, its draws taken (R325). -/
def run (r : RunInput) : Host.Outcome RunResult Fault Refusal := runFrom r State.reset

/-- The run of `r` has ended in `s` (R325): nothing is offered any more, the block is idle, and the response to the last
operation, if there was one, is presented. -/
def RunEnded (r : RunInput) (s : State) : Prop :=
  s.offers = [] ∧ s.useq = [] ∧ s.phase = .idle ∧ s.busy = false ∧ (r.ops ≠ [] → s.rsp.valid = true)

end Sys2Proof.Machine
end

