-- ==== Sys2Proof/Safety.lean ====
section
/-! DEFINITION. The terms claims are stated in: the events of a bit and of a frame (R10, R174, R190, R191), what a trace shows
clock cycle by clock cycle (R107, R108), lower bounds on time (R321), classes of operations, the rest states and invariants of
R27, R40 and R210. -/

namespace Sys2Proof.Machine

/-! ### Events of the wire trace -/

/-- Events that happen while phase `p` is held. -/
def under (p : Phase) (es : List Event) : List TraceEntry := es.map (TraceEntry.mk p)

/-- The event of `SetMode(L, m)` on a line in mode `cur`, recorded only on a change (R131). -/
def modeEvents (cur : Mode) (L : Line) (m : Mode) : List Event := if cur = m then [] else [.mode L m]

/-- `out(b)` on the engine path at half-period `h` (R190). -/
def engOutEvents (h : Nat) (b : Bool) : List Event :=
  [.write .dio b, .write .clk false, .delay h, .write .clk true, .delay h]

/-- `in() = b` on the engine path at half-period `h` (R191). -/
def engInEvents (h : Nat) (b : Bool) : List Event :=
  [.write .clk false, .delay h, .sample .dio b, .write .clk true, .delay h]

/-- `out(b)` on the SWJ path at half-period `h` (R174). -/
def swjOutEvents (h : Nat) (b : Bool) : List Event :=
  [.write .clk false, .write .dio b, .delay h, .write .clk true, .delay h]

/-- The `n` bits of `v`, LSB first, sent on the engine path (R192). -/
def sendEvents (h n : Nat) (v : Word) : List Event :=
  (List.range n).flatMap fun i => engOutEvents h (v.getLsbD i)

/-- `n` bits received on the engine path, the `i`-th being `f i` (R193). -/
def recvEvents (h n : Nat) (f : Nat → Bool) : List Event :=
  (List.range n).flatMap fun i => engInEvents h (f i)

/-- The first `n` bits of a byte sequence clocked out on the SWJ path (R173). -/
def sequenceEvents (h n : Nat) (bytes : List Byte) : List Event :=
  (List.range n).flatMap fun i => swjOutEvents h (seqBit bytes i)

/-- The value of `n` received bits, the first received being bit 0 (R32, R193). -/
def received (f : Nat → Bool) : Nat → Word
  | 0 => 0
  | n + 1 => putBit (received f n) n (f n)

/-- The environment's answers from the `k`-th sample on. -/
def answersFrom (s : State) (k : Nat) : Nat → Bool := fun i => answer s (k + i)

/-- The ACK code a transaction begun in `s` receives: the three samples after the turnaround sample, the first of them bit 0
(R63, R98, R100). -/
def ackReceived (s : State) : BitVec 3 :=
  BitVec.ofBool (answer s 3) ++ BitVec.ofBool (answer s 2) ++ BitVec.ofBool (answer s 1)

/-- The data word a read begun in `s` receives: 32 samples after the 4 of its ACK phase (R102, R201). -/
def wordReceived (s : State) : Word := received (answersFrom s 4) 32

/-- The parity bit a read begun in `s` receives (R102, R201). -/
def parityReceived (s : State) : Bool := answer s 36

/-- The mode of a line during the settle delay of SWJ.DRIVE: `m` where the mask selects it, else as before (R171 (a)). -/
def modeWhileDriven (selected : Bool) (m cur : Mode) : Mode := if selected then m else cur

/-- What SWJ.DRIVE does to a push-pull line: selected, it is put in `OUT` mode and its level written (R171). -/
def pushPullEvents (cur : Mode) (L : Line) (selected level : Bool) : List Event :=
  if selected then modeEvents cur L .out ++ [.write L level] else []

/-- What SWJ.DRIVE does to the open-drain reset line: selected, high is `DIS` and no write, low is `OUT` and a 0 (R172). -/
def openDrainEvents (cur : Mode) (selected level : Bool) : List Event :=
  if selected then (if level then modeEvents cur .rst .dis else modeEvents cur .rst .out ++ [.write .rst false]) else []

/-- The mode of the reset line during the settle delay of SWJ.DRIVE (R171, R172). -/
def resetWhileDriven (selected level : Bool) (cur : Mode) : Mode :=
  modeWhileDriven selected (if level then .dis else .out) cur

/-! ### What a trace shows -/

/-- One clock cycle as the target sees the data line at the rising edge (R107): driven by the block to a level, or left to the
environment, with the level the block sampled in that cycle, if it sampled one. -/
inductive Cycle where
  | drive (b : Bool)
  | listen (b : Option Bool)
  deriving DecidableEq, Repr

/-- The clock cycles of a list of events, one per `W(CLK,1)`, given the mode and level of DIO before it and the sample taken
since the last rising edge. The order of two writes with no delay between them does not show (R174, R190). -/
def cyclesOf : Mode → Bool → Option Bool → List Event → List Cycle
  | _, _, _, [] => []
  | m, d, p, e :: es =>
    match e with
    | .mode .dio m' => cyclesOf m' d p es
    | .write .dio b => cyclesOf m b p es
    | .sample .dio b => cyclesOf m d (some b) es
    | .write .clk true => (if m = .out then .drive d else .listen p) :: cyclesOf m d none es
    | .write .clk false | .mode .clk _ | .mode .rst _ | .write .rst _ | .sample .clk _ | .sample .rst _ | .delay _ =>
      cyclesOf m d p es

/-- The clock cycles a step that took `s` to `t` generated. -/
def cyclesBetween (s t : State) : List Cycle :=
  cyclesOf s.mode.dio s.lat.dio none ((t.trace.drop s.trace.length).map TraceEntry.event)

/-- Whether an event is a rising edge of the clock line. -/
def isRisingEdge : Event → Bool
  | .write .clk true => true
  | .write .clk false | .write .dio _ | .write .rst _ | .mode _ _ | .sample _ _ | .delay _ => false

/-- The number of clock cycles in a list of events (R108). -/
def clockCount (es : List Event) : Nat := es.countP isRisingEdge

/-- The processor cycles an event waits at least (R320). -/
def delayOf : Event → Nat
  | .delay n => n
  | .mode _ _ | .write _ _ | .sample _ _ => 0

/-- The lower bound on the duration of a list of events, in processor cycles (R321). -/
def delayTotal (es : List Event) : Nat := (es.map delayOf).sum

/-- The events a step that took `s` to `t` caused, in order. -/
def newEvents (s t : State) : List Event := (t.trace.drop s.trace.length).map TraceEntry.event

/-- The number of clock cycles a step that took `s` to `t` generated while phase `p` was held (R200). -/
def clocksInPhase (p : Phase) (s t : State) : Nat :=
  clockCount (((t.trace.drop s.trace.length).filter fun e => decide (e.phase = p)).map TraceEntry.event)

/-! ### Classes of operations -/

/-- The fifteen external operations (R91, R92). -/
def isExternal : Instr → Bool
  | .suspend | .timSetClock _ | .swjDrive _ _ _ | .swjClockSequence _ _ => true
  | .swdAcquire | .swdRelease | .swdRead _ _ | .swdWrite _ _ _ | .swdConfigure _ _ | .swdSetClock _ => true
  | .jtagAvailable | .jtagAcquire | .jtagRelease | .jtagSequences _ _ | .jtagSetClock _ => true
  | .reserved01111 | .pinSetMode _ _ | .pinWrite _ _ | .pinRead _ | .timConfigure _ _ => false
  | .timDelay _ | .sendBits _ _ | .recvBits _ => false
  | .unused10111 | .unused11000 | .unused11001 | .unused11010 | .unused11011 => false
  | .unused11100 | .unused11101 | .unused11110 | .unused11111 => false
  | .wireRequestRead _ _ | .wireRequestWrite _ _ | .wireAckphaseRead _ | .wireAckphaseWrite _ => false
  | .wireAckOk | .wireAckWait | .wireAckFault => false

/-- The ten codes that name no operation (R114 (a)). -/
def namesNoOperation : Instr → Bool
  | .reserved01111 | .unused10111 | .unused11000 | .unused11001 | .unused11010 | .unused11011 => true
  | .unused11100 | .unused11101 | .unused11110 | .unused11111 => true
  | .suspend | .timSetClock _ | .swjDrive _ _ _ | .swjClockSequence _ _ => false
  | .swdAcquire | .swdRelease | .swdRead _ _ | .swdWrite _ _ _ | .swdConfigure _ _ | .swdSetClock _ => false
  | .jtagAvailable | .jtagAcquire | .jtagRelease | .jtagSequences _ _ | .jtagSetClock _ => false
  | .pinSetMode _ _ | .pinWrite _ _ | .pinRead _ | .timConfigure _ _ => false
  | .timDelay _ | .sendBits _ _ | .recvBits _ => false
  | .wireRequestRead _ _ | .wireRequestWrite _ _ | .wireAckphaseRead _ | .wireAckphaseWrite _ => false
  | .wireAckOk | .wireAckWait | .wireAckFault => false

/-- What can be offered on the command port: an external operation, or a code that names none. -/
def isOffer (i : Instr) : Bool := isExternal i || namesNoOperation i

/-- Whether an external operation, or a code that names none, is performed in an owner state: the table of R286. -/
def permitted (o : Owner) : Instr → Bool
  | .suspend | .timSetClock _ | .swjDrive _ _ _ | .swjClockSequence _ _ | .jtagAvailable => true
  | .swdAcquire | .jtagAcquire => decide (o = .free)
  | .swdRelease | .swdRead _ _ | .swdWrite _ _ _ | .swdConfigure _ _ | .swdSetClock _ => decide (o = .swd)
  | .jtagRelease | .jtagSequences _ _ | .jtagSetClock _ => decide (o = .jtag)
  | .reserved01111 | .pinSetMode _ _ | .pinWrite _ _ | .pinRead _ | .timConfigure _ _ => false
  | .timDelay _ | .sendBits _ _ | .recvBits _ => false
  | .unused10111 | .unused11000 | .unused11001 | .unused11010 | .unused11011 => false
  | .unused11100 | .unused11101 | .unused11110 | .unused11111 => false
  | .wireRequestRead _ _ | .wireRequestWrite _ _ | .wireAckphaseRead _ | .wireAckphaseWrite _ => false
  | .wireAckOk | .wireAckWait | .wireAckFault => false

/-- The frequency an operation requests of the Timing Controller, if it requests one (R153, R206, R254). -/
def requestedHz : Instr → Option Word
  | .timSetClock hz | .swdSetClock hz | .jtagSetClock hz => some hz
  | .suspend | .swjDrive _ _ _ | .swjClockSequence _ _ => none
  | .swdAcquire | .swdRelease | .swdRead _ _ | .swdWrite _ _ _ | .swdConfigure _ _ => none
  | .jtagAvailable | .jtagAcquire | .jtagRelease | .jtagSequences _ _ => none
  | .reserved01111 | .pinSetMode _ _ | .pinWrite _ _ | .pinRead _ | .timConfigure _ _ => none
  | .timDelay _ | .sendBits _ _ | .recvBits _ => none
  | .unused10111 | .unused11000 | .unused11001 | .unused11010 | .unused11011 => none
  | .unused11100 | .unused11101 | .unused11110 | .unused11111 => none
  | .wireRequestRead _ _ | .wireRequestWrite _ _ | .wireAckphaseRead _ | .wireAckphaseWrite _ => none
  | .wireAckOk | .wireAckWait | .wireAckFault => none

/-! ### States at rest -/

/-- Bus released: CLK and DIO both in floating-input mode (R11). -/
def Released (s : State) : Prop := s.mode.clk = .inp ∧ s.mode.dio = .inp

/-- The block is idle: no operation in progress (R282, R325). -/
def Idle (s : State) : Prop := s.busy = false ∧ s.phase = .idle ∧ s.dly = 0

/-- The invariant on the timing registers (R27); that `max_freq` is not 0 is the model's strengthening, from R6 and R156. -/
def TimingInv (s : State) : Prop :=
  0 < s.maxFreq ∧ s.maxFreq < s.cpuFreq ∧ s.halfPeriod = halfPeriodOf s.cpuFreq s.maxFreq

/-- The invariant set of R40 between operations, with the sequencer's own register empty. -/
def Inv (s : State) : Prop :=
  s.useq = [] ∧ Idle s ∧ s.mode.rst = .inp ∧ (s.owner ≠ .swd → Released s) ∧ TimingInv s

end Sys2Proof.Machine
end

