-- ==== Sys2Proof/Certificates/Slice0/Obligations.lean ====
section
/-! DEFINITION. The statements about the block, for the provers. The abbreviations are those of Safety: `under p es` is the
events `es` while phase `p` is held, `answer s k` is the environment's answer to the `k`-th sample from `s` on. -/

open Sys2Proof Sys2Proof.Machine

/-! ### Reset and parameters -/

/-- R50: what reset leaves. The unspecified `req`, `ack`, `shreg`, `par` are not spoken of. That `trn_cfg` is 0 is the
coding cycles minus one, the spec's general knowledge (R110, D23, log 15, log 19); R50 marks rows decided (D1, D4, D5, D14,
D21), and the draws are the model's constants (log 3, log 4). -/
def Obligations.ResetLeavesTheSpecifiedState : Prop :=
  State.reset.mode = ⟨.inp, .inp, .inp⟩ ∧
  State.reset.lat = ⟨Config.latchReset .clk, Config.latchReset .dio, Config.latchReset .rst⟩ ∧
  State.reset.cpuFreq = Config.cpuFreq ∧
  State.reset.maxFreq = Config.initMaxFreq ∧
  State.reset.cyclesPerUs.toNat = Config.cpuFreq.toNat / 1000000 ∧
  State.reset.halfPeriod.toNat = Config.cpuFreq.toNat / Config.initMaxFreq.toNat / 2 ∧
  State.reset.owner = .free ∧ State.reset.phase = .idle ∧ State.reset.bitcnt = 0 ∧ State.reset.dly = 0 ∧
  State.reset.rsp = ⟨.ok, 0, false⟩ ∧ State.reset.trnCfg = 0 ∧ State.reset.dphCfg = false ∧ State.reset.busy = false

/-- R6, R302: the open parameters satisfy `0 < INIT_MAX_FREQ < CPU_FREQ`. The construction of the parameters is the model's
(log 3). -/
def Obligations.ParametersAreAdmitted : Prop :=
  0 < Config.initMaxFreq.toNat ∧ Config.initMaxFreq.toNat < Config.cpuFreq.toNat

/-- R300 (b): performing TIM.CONFIGURE on the state reset has otherwise set up gives the reset state. -/
def Obligations.ResetPerformsTimConfigure : Prop :=
  ∀ (cpu max : Word) (lat : PerLine Bool), max ≠ 0 →
    exec (.timConfigure cpu max) (State.unconfigured lat) = .next (State.resetWith cpu max lat)

/-- The invariant set of R27 and R40 holds after reset. That `max_freq` is not 0 is the model's strengthening (R6, R156). -/
def Obligations.ResetMeetsTheInvariants : Prop := Inv State.reset

/-- R27, R40: every step keeps the invariant set: timing registers consistent, bus released whenever SWD does not hold it,
RST floating, block idle. That `max_freq` stays nonzero is the model's strengthening (R6, R156). -/
def Obligations.EveryStepKeepsTheInvariants : Prop :=
  ∀ s t : State, Inv s → step s = .next t → Inv t

/-! ### The step -/

/-- A step runs the decoded operation: an accepted offer with the block busy and no result presented, or what the sequencer
issues. The two queues are the model's (log 7, log 8). -/
def Obligations.StepRunsTheDecodedOperation : Prop :=
  (∀ (s : State) (p : CmdPort) (rest : List CmdPort) (i : Instr),
    s.useq = [] → s.busy = false → s.offers = p :: rest → decode (.command p) = .ok i →
    step s = exec i { s with offers := rest, busy := true, rsp := { s.rsp with valid := false } }) ∧
  (∀ (s : State) (f : SeqFrame) (rest : List SeqFrame) (i : Instr),
    s.useq = f :: rest → decode (.internal f) = .ok i → step s = exec i { s with useq := rest })

/-- R282: with nothing offered, or while busy, nothing happens and no offer is dropped. That waiting is a step is the
model's choice (log 21). -/
def Obligations.AnOfferWaitsWhileBusy : Prop :=
  ∀ s : State, s.useq = [] → (s.busy = true ∨ s.offers = []) → step s = .next s

/-- R114 (b): an internal code on the command port is refused: no state changes but the response, no pin event. -/
def Obligations.InternalCodesAreRefusedOnTheCommandPort : Prop :=
  ∀ (s : State) (p : CmdPort) (rest : List CmdPort),
    s.useq = [] → s.busy = false → s.offers = p :: rest → 16 ≤ p.op.toNat → p.op.toNat ≤ 22 →
    step s = .next { s with offers := rest, rsp := ⟨.refused, 0, true⟩, busy := false }

/-! ### Encodings -/

/-- Decoding the frame of a well-formed operation gives it back, every operand at every value. The micro-operation register
is the model's (log 8). The delays that are well formed are those of the 64-bit counter (log 22). -/
def Obligations.DecodeOfEncodeIsTheOperation : Prop :=
  ∀ i : Instr, WellFormed i → decode (encode i) = .ok i

/-- Whatever decodes is well formed. "Well formed" is the model's reading in two places: a TIM.DELAY count is any below
2^64, the width of the counter (R38, R157), where R91 gives a cycle count 32 bits (log 22), and SEND_BITS takes the low bits
of the value port, whose register is the model's (log 8). -/
def Obligations.DecodedOperationsAreWellFormed : Prop :=
  ∀ (f : Frame) (i : Instr), decode f = .ok i → WellFormed i

/-- R91, R92, R114: the command port carries the external codes and the codes that name no operation, and rejects exactly the
internal codes. -/
def Obligations.CommandCodesSplitAsTheTableSays : Prop :=
  ∀ p : CmdPort,
    (p.op.toNat < 15 → ∃ i, decode (.command p) = .ok i ∧ isExternal i = true) ∧
    (p.op.toNat = 15 ∨ 23 ≤ p.op.toNat → ∃ i, decode (.command p) = .ok i ∧ namesNoOperation i = true) ∧
    (16 ≤ p.op.toNat ∧ p.op.toNat ≤ 22 → decode (.command p) = .error .internalOnCommandPort)

/-- R94 to R96, R114 (g): a request byte decodes exactly when it is the request of some operands, and then to those
operands. The layout is the spec's general knowledge (D6, log 15). -/
def Obligations.RequestBytesHaveOneMeaning : Prop :=
  ∀ (b : BitVec 8) (i : Instr), decode (.internal (.request b)) = .ok i ↔
    ∃ (apndp : Bool) (a : BitVec 2),
      (i = .wireRequestRead apndp a ∧ b = makeRequest apndp true a) ∨
      (i = .wireRequestWrite apndp a ∧ b = makeRequest apndp false a)

/-- R92, R94, R101: a few words written out from the spec decode to what they stand for. Line codes are the model's (log 8),
request layout and WAIT code the spec's general knowledge (log 15). -/
def Obligations.SampleWordsDecode : Prop :=
  decode (.command { op := 0b00000 }) = .ok .suspend ∧
  decode (.command { op := 0b00001, word := 100000 }) = .ok (.timSetClock 100000) ∧
  decode (.command { op := 0b00110, apndp := true, a := 0b11 }) = .ok (.swdRead true 0b11) ∧
  decode (.command { op := 0b01101, bitCount := 8, bytes := [0xFF] }) = .ok (.jtagSequences 8 [0xFF]) ∧
  decode (.command { op := 0b10111 }) = .ok .unused10111 ∧
  decode (.internal (.micro { op := 0b10000, line := 1, mode := 0b01 })) = .ok (.pinSetMode .dio .inp) ∧
  decode (.internal (.request 0b10100101)) = .ok (.wireRequestRead false 0b00) ∧
  decode (.internal (.request 0b10001011)) = .ok (.wireRequestWrite true 0b01) ∧
  decode (.internal (.ack 0b010)) = .ok .wireAckWait

/-- R94, R95: the layout of the request byte, its parity bit the exclusive or of the four bits before it. The layout is the
spec's general knowledge (D6, log 15). -/
def Obligations.RequestByteLayout : Prop :=
  ∀ (apndp rnw : Bool) (a : BitVec 2),
    (makeRequest apndp rnw a).getLsbD 0 = true ∧
    (makeRequest apndp rnw a).getLsbD 1 = apndp ∧
    (makeRequest apndp rnw a).getLsbD 2 = rnw ∧
    (makeRequest apndp rnw a).getLsbD 3 = a.getLsbD 0 ∧
    (makeRequest apndp rnw a).getLsbD 4 = a.getLsbD 1 ∧
    (makeRequest apndp rnw a).getLsbD 5 = (apndp ^^ rnw ^^ a.getLsbD 0 ^^ a.getLsbD 1) ∧
    (makeRequest apndp rnw a).getLsbD 6 = false ∧
    (makeRequest apndp rnw a).getLsbD 7 = true

/-- R112: the code of each status. -/
def Obligations.StatusCodesAreTheTables : Prop :=
  statusCode .ok = 0 ∧ statusCode .ackWait = 1 ∧ statusCode .ackFault = 2 ∧ statusCode .ackNoResponse = 3 ∧
  statusCode .badParity = 4 ∧ statusCode .unsupportedConfiguration = 5 ∧ statusCode .clockRejected = 6 ∧
  statusCode .refused = 7 ∧ statusCode .unavailable = 8

/-! ### Flags and arithmetic -/

/-- R104: the parity bit of a word is 1 exactly when the number of its one bits is odd. -/
def Obligations.ParityIsPopulationCountModTwo : Prop :=
  ∀ w : Word, parity32 w = decide ((List.range 32).countP (fun i => w.getLsbD i) % 2 = 1)

/-- R203: the parity check detects exactly the corruptions of an odd number of the 33 received bits: with `e` the corrupted
data bits and `c` whether the parity bit was corrupted too, the check passes exactly when their number is even. -/
def Obligations.ParityCheckDetectsOddCorruption : Prop :=
  ∀ (w e : Word) (c : Bool),
    (parity32 w ^^ c) = parity32 (w ^^^ e) ↔ (popcount e + c.toNat) % 2 = 0

/-- R63, R193: the `i`-th bit received becomes bit `i` of the value, the other bits are 0. -/
def Obligations.ReceivedBitsEnterLsbFirst : Prop :=
  ∀ (f : Nat → Bool) (n i : Nat), n ≤ 32 → (received f n).getLsbD i = (decide (i < n) && f i)

/-- R98, R100: the ACK code is the three bits after the turnaround bit, on the 4-bit and on the 5-bit path. -/
def Obligations.AckCodeIsBitsOneToThree : Prop :=
  ∀ (f : Nat → Bool) (n k : Nat), n = 4 ∨ n = 5 → k < 3 → (ackOf (received f n)).getLsbD k = f (k + 1)

/-- R154: the half-period of a nonzero request is `cpu div (2 * hz)`, and 0 above half the processor frequency. -/
def Obligations.HalfPeriodArithmetic : Prop :=
  ∀ cpu hz : Word, hz ≠ 0 →
    (halfPeriodOf cpu hz).toNat = cpu.toNat / hz.toNat / 2 ∧
    (halfPeriodOf cpu hz).toNat = cpu.toNat / (2 * hz.toNat) ∧
    (cpu.toNat < 2 * hz.toNat → halfPeriodOf cpu hz = 0)

/-! ### Pin Controller -/

/-- R131: a mode change is one event, no change is none, the latch is kept. That the latch persists across a mode change is
the spec's choice (R23, D2, log 23). -/
def Obligations.PinSetModeSetsTheMode : Prop :=
  ∀ (L : Line) (m : Mode) (s : State),
    exec (.pinSetMode L m) s = .next { s with
      mode := s.mode.set L m
      trace := s.trace ++ under s.phase (if s.mode.get L = m then [] else [.mode L m]) }

/-- R132, R134: in `OUT` mode the latch is written and the write recorded; in any other mode it is mode misuse. The fault is
the model half of R134 (D24, log 11). -/
def Obligations.PinWriteWritesTheLatch : Prop :=
  ∀ (L : Line) (b : Bool) (s : State),
    (s.mode.get L = .out → exec (.pinWrite L b) s = .next { s with
      lat := s.lat.set L b
      trace := s.trace ++ under s.phase [.write L b] }) ∧
    (s.mode.get L ≠ .out → exec (.pinWrite L b) s = .fault .pinModeMisuse)

/-- R133, R134: in `IN` mode the level sampled is the environment's next answer and no register changes; in any other mode
it is mode misuse. The script of answers is the model's form of R37 (log 2); the fault is the model half of R134 (log 11). -/
def Obligations.PinReadSamplesTheEnvironment : Prop :=
  ∀ (L : Line) (s : State),
    (s.mode.get L = .inp → exec (.pinRead L) s = .next { s with
      env := s.env.drop 1
      samples := s.samples + 1
      trace := s.trace ++ under s.phase [.sample L (answer s 0)] }) ∧
    (s.mode.get L ≠ .inp → exec (.pinRead L) s = .fault .pinModeMisuse)

/-! ### Timing Controller -/

/-- R151: the four timing registers, each from the formula of the rule, and nothing else; where `max` is 0 the formula has
no value and nothing is said of the half-period. That the operation runs at `max` = 0, which R151's require excludes, is the
model's choice (log 12); the formulas of `cycles_per_us` and the half-period are, in R151's words, "the spec's reading". -/
def Obligations.TimConfigureSetsTheTimingRegisters : Prop :=
  ∀ (cpu max : Word) (s : State), ∃ h : Word, (max ≠ 0 → h.toNat = cpu.toNat / max.toNat / 2) ∧
    exec (.timConfigure cpu max) s = .next { s with
      cpuFreq := cpu
      maxFreq := max
      cyclesPerUs := BitVec.ofNat 32 (cpu.toNat / 1000000)
      halfPeriod := h }

/-- R152: a delay of `n` cycles is the event `D(n)`, the counter is at 0 after it, and nothing else happens. -/
def Obligations.TimDelayWaits : Prop :=
  ∀ (n : Nat) (s : State),
    exec (.timDelay n) s = .next { s with dly := 0, trace := s.trace ++ under s.phase [.delay n] }

/-- R153, R206, R254: a clock request, by whichever of the three operations may make it, is rejected from `cpu_freq` up with
nothing changed, and accepted below it with the half-period recomputed; no pin event either way. At 0 Hz it is the fault
`DivideByZero`. An engine that does not hold the bus is refused. -/
def Obligations.SetClockNegotiatesTheHalfPeriod : Prop :=
  (∀ (hz : Word) (s : State) (i : Instr),
    (i = .timSetClock hz ∨ (i = .swdSetClock hz ∧ s.owner = .swd) ∨ (i = .jtagSetClock hz ∧ s.owner = .jtag)) →
    (s.cpuFreq.toNat ≤ hz.toNat →
      exec i s = .next { s with rsp := ⟨.clockRejected, 0, true⟩, busy := false }) ∧
    (hz.toNat < s.cpuFreq.toNat → hz ≠ 0 →
      exec i s = .next { s with
        maxFreq := hz
        halfPeriod := BitVec.ofNat 32 (s.cpuFreq.toNat / hz.toNat / 2)
        rsp := ⟨.ok, 0, true⟩
        busy := false }) ∧
    (hz = 0 → 0 < s.cpuFreq.toNat → exec i s = .fault .divideByZero)) ∧
  (∀ (hz : Word) (s : State),
    (s.owner ≠ .swd → exec (.swdSetClock hz) s = .next { s with rsp := ⟨.refused, 0, true⟩, busy := false }) ∧
    (s.owner ≠ .jtag → exec (.jtagSetClock hz) s = .next { s with rsp := ⟨.refused, 0, true⟩, busy := false }))

/-! ### Line-Level Transport -/

/-- R65, R171, R172: SWJ.DRIVE drives the selected lines, waits, floats and samples all three, and answers the sampled mask,
at any three distinct mask positions `B`; exec performs it at the decided ones, 0, 1 and 7, which are the spec's general
knowledge (R65, D13, log 15). That CLK, DIO, RST are driven and sampled in this order, and so take the answers 0, 1, 2, is the
spec's choice, on which no claim should rest (R171 (h), D13, log 16). -/
def Obligations.SwjDriveDrivesFloatsAndSamples : Prop :=
  ∀ (B : MaskBits) (levels mask : Byte) (settleUs : Word) (s : State), B.Distinct → ∃ (data : Word) (t : State),
    (∀ k, data.getLsbD k =
      if k = B.clk.val then answer s 0 else if k = B.dio.val then answer s 1 else if k = B.rst.val then answer s 2
      else false) ∧
    t = { s with
      mode := ⟨.inp, .inp, .inp⟩
      lat := ⟨if mask.getLsbD B.clk.val then levels.getLsbD B.clk.val else s.lat.clk,
              if mask.getLsbD B.dio.val then levels.getLsbD B.dio.val else s.lat.dio,
              if mask.getLsbD B.rst.val && !levels.getLsbD B.rst.val then false else s.lat.rst⟩
      dly := 0
      rsp := ⟨.ok, data, true⟩
      busy := false
      env := s.env.drop 3
      samples := s.samples + 3
      trace := s.trace ++ under s.phase (
        pushPullEvents s.mode.clk .clk (mask.getLsbD B.clk.val) (levels.getLsbD B.clk.val) ++
        pushPullEvents s.mode.dio .dio (mask.getLsbD B.dio.val) (levels.getLsbD B.dio.val) ++
        openDrainEvents s.mode.rst (mask.getLsbD B.rst.val) (levels.getLsbD B.rst.val) ++
        [.delay (settleUs.toNat * s.cyclesPerUs.toNat)] ++
        modeEvents (modeWhileDriven (mask.getLsbD B.clk.val) .out s.mode.clk) .clk .inp ++
        modeEvents (modeWhileDriven (mask.getLsbD B.dio.val) .out s.mode.dio) .dio .inp ++
        modeEvents (resetWhileDriven (mask.getLsbD B.rst.val) (levels.getLsbD B.rst.val) s.mode.rst) .rst .inp ++
        [.sample .clk (answer s 0), .sample .dio (answer s 1), .sample .rst (answer s 2)]) } ∧
    toOutcome (swjDrive B levels mask settleUs s) = .next t ∧
    (B = ⟨0, 1, 7⟩ → exec (.swjDrive levels mask settleUs) s = .next t)

/-- R68, R173: SWJ.CLOCK_SEQUENCE clocks `min(bit_count, 8 * len)` bits between driving and floating both lines. The last
value of `bitcnt` is the model's reading of R30 (log 14); the order inside a bit (D8) and CLK before DIO on entry and exit
(D26) are the spec's choices, on which no claim may rest (log 16). -/
def Obligations.SwjClockSequenceClocksTheBits : Prop :=
  ∀ (bitCount : Word) (bytes : List Byte) (s : State) (n : Nat), n = min bitCount.toNat (8 * bytes.length) →
    exec (.swjClockSequence bitCount bytes) s = .next { s with
      mode := ⟨.inp, .inp, s.mode.rst⟩
      lat := if n = 0 then s.lat else ⟨true, (bytes.getD ((n - 1) / 8) 0).getLsbD ((n - 1) % 8), s.lat.rst⟩
      dly := if n = 0 then s.dly else 0
      bitcnt := if n = 0 then 0 else BitVec.ofNat 6 ((n - 1) % 8 + 1)
      rsp := ⟨.ok, 0, true⟩
      busy := false
      trace := s.trace ++ under s.phase (
        modeEvents s.mode.clk .clk .out ++ modeEvents s.mode.dio .dio .out ++
        ((List.range n).flatMap fun k =>
          swjOutEvents s.halfPeriod.toNat ((bytes.getD (k / 8) 0).getLsbD (k % 8))) ++
        [.mode .clk .inp, .mode .dio .inp]) }

/-- R64, R68, R173: seen at the rising edges of the clock, SWJ.CLOCK_SEQUENCE is its bits, LSB first per byte, and no more. -/
def Obligations.SwjClockSequenceOnTheWire : Prop :=
  ∀ (bitCount : Word) (bytes : List Byte) (s : State), ∃ t,
    exec (.swjClockSequence bitCount bytes) s = .next t ∧
    cyclesBetween s t = (List.range (min bitCount.toNat (8 * bytes.length))).map
      fun k => .drive ((bytes.getD (k / 8) 0).getLsbD (k % 8))

/-! ### Bit micro-operations -/

/-- R192, R190: SEND_BITS sends its bits LSB first and leaves DIO driven; without the clock driven its first bit is mode
misuse, and no bit only sets the mode. The fault is the model half of R134 (D24, log 11); the order inside a bit is the
spec's choice D8, on which no claim may rest (log 16). -/
def Obligations.SendBitsClocksLsbFirst : Prop :=
  ∀ (n : Nat) (v : Word) (s : State), n ≤ 32 →
    (s.mode.clk = .out ∨ n = 0 → exec (.sendBits n v) s = .next { s with
      mode := s.mode.set .dio .out
      lat := if n = 0 then s.lat else ⟨true, v.getLsbD (n - 1), s.lat.rst⟩
      dly := if n = 0 then s.dly else 0
      bitcnt := BitVec.ofNat 6 n
      trace := s.trace ++ under s.phase (modeEvents s.mode.dio .dio .out ++
        (List.range n).flatMap fun i => engOutEvents s.halfPeriod.toNat (v.getLsbD i)) }) ∧
    (s.mode.clk ≠ .out → 0 < n → exec (.sendBits n v) s = .fault .pinModeMisuse)

/-- R193, R191: RECV_BITS samples its bits LSB first with DIO floating. That the value is left in `shreg` is the model's
reading of R32 (log 13), the fault the model half of R134 (D24, log 11), and the sample instant inside a bit the spec's
choice (R191, D8, U16, log 16). -/
def Obligations.RecvBitsSamplesLsbFirst : Prop :=
  ∀ (n : Nat) (s : State), n ≤ 32 →
    (s.mode.clk = .out ∨ n = 0 → exec (.recvBits n) s = .next { s with
      mode := s.mode.set .dio .inp
      lat := if n = 0 then s.lat else ⟨true, s.lat.dio, s.lat.rst⟩
      dly := if n = 0 then s.dly else 0
      bitcnt := BitVec.ofNat 6 n
      shreg := received (answer s) n
      env := s.env.drop n
      samples := s.samples + n
      trace := s.trace ++ under s.phase (modeEvents s.mode.dio .dio .inp ++
        (List.range n).flatMap fun i => engInEvents s.halfPeriod.toNat (answer s i)) }) ∧
    (s.mode.clk ≠ .out → 0 < n → exec (.recvBits n) s = .fault .pinModeMisuse)

/-! ### Acquire, release, suspend -/

/-- R195: from a free bus SWD.ACQUIRE takes it and drives both lines with whatever the latches hold; it is refused on a bus
that is not free. That the CLK event comes before the DIO event is the spec's choice D26, on which no claim may rest (log
16). That acquiring writes no latch is the spec's choice (D15), as is that a latch persists (R23, D2, log 23). -/
def Obligations.SwdAcquireDrivesBothLines : Prop :=
  ∀ s : State,
    (s.owner = .free → exec .swdAcquire s = .next { s with
      owner := .swd
      mode := ⟨.out, .out, s.mode.rst⟩
      rsp := ⟨.ok, 0, true⟩
      busy := false
      trace := s.trace ++ under s.phase (modeEvents s.mode.clk .clk .out ++ modeEvents s.mode.dio .dio .out) }) ∧
    (s.owner ≠ .free → exec .swdAcquire s = .next { s with rsp := ⟨.refused, 0, true⟩, busy := false })

/-- R196, R252, R258: SWD.RELEASE by SWD, JTAG.RELEASE by the stub and SUSPEND by anyone float both lines and free the bus;
latches and timing registers are kept. A release by who does not hold the bus is refused. That SUSPEND ends ownership is
"the spec's reading of 'lines released'" (R258, D17); that CLK floats before DIO is the spec's choice D26, on which no claim
may rest (log 16). That the latches persist outside `OUT` mode is the spec's choice (R23, D2, log 23). -/
def Obligations.ReleaseAndSuspendFloatBothLines : Prop :=
  (∀ (s : State) (i : Instr),
    ((i = .swdRelease ∧ s.owner = .swd) ∨ (i = .jtagRelease ∧ s.owner = .jtag) ∨ i = .suspend) →
    exec i s = .next { s with
      owner := .free
      mode := ⟨.inp, .inp, s.mode.rst⟩
      rsp := ⟨.ok, 0, true⟩
      busy := false
      trace := s.trace ++ under s.phase (modeEvents s.mode.clk .clk .inp ++ modeEvents s.mode.dio .dio .inp) }) ∧
  (∀ s : State,
    (s.owner ≠ .swd → exec .swdRelease s = .next { s with rsp := ⟨.refused, 0, true⟩, busy := false }) ∧
    (s.owner ≠ .jtag → exec .jtagRelease s = .next { s with rsp := ⟨.refused, 0, true⟩, busy := false }))

/-- R258: SUSPEND received while already quiescent changes nothing: a second one leaves the state the first one left. -/
def Obligations.SuspendIsIdempotent : Prop :=
  ∀ s : State, ∃ t, exec .suspend s = .next t ∧ exec .suspend t = .next t

/-- R250, R251, R253: the stub answers `Unavailable` to anyone; it takes a free bus without touching a line; its sequences
consume no bit whatever the operands; it is refused a bus that is not free, and sequences on a bus it does not hold. That
JTAG.ACQUIRE leaves the lines floating is "the spec's choice" (R251, D16), and so are the operands of JTAG.SEQUENCES (R253,
D16; log 23). -/
def Obligations.JtagStubTouchesNoLine : Prop :=
  (∀ s : State, exec .jtagAvailable s = .next { s with rsp := ⟨.unavailable, 0, true⟩, busy := false }) ∧
  (∀ s : State, s.owner = .free →
    exec .jtagAcquire s = .next { s with owner := .jtag, rsp := ⟨.ok, 0, true⟩, busy := false }) ∧
  (∀ (s : State) (bitCount : Word) (bytes : List Byte), s.owner = .jtag →
    exec (.jtagSequences bitCount bytes) s = .next { s with rsp := ⟨.ok, 0, true⟩, busy := false }) ∧
  (∀ s : State, s.owner ≠ .free →
    exec .jtagAcquire s = .next { s with rsp := ⟨.refused, 0, true⟩, busy := false }) ∧
  (∀ (s : State) (bitCount : Word) (bytes : List Byte), s.owner ≠ .jtag →
    exec (.jtagSequences bitCount bytes) s = .next { s with rsp := ⟨.refused, 0, true⟩, busy := false })

/-! ### Transactions -/

/-- R201, R203: a read whose ACK is OK. The word is returned only when the received parity bit matches; otherwise
`BadParity`; the lines, registers and trace are the same either way. The event order and the sample instant inside a bit are
the spec's choices (D8, log 16), and `bitcnt` at rest is the model's reading of R30 (log 14). That all trailing bits are
driven is the spec's choice D10. The request layout is the spec's general knowledge (D6, log 15). Which phase labels which
clocks is the spec's choice (R200, D19). -/
def Obligations.SwdReadWithAckOk : Prop :=
  ∀ (apndp : Bool) (a : BitVec 2) (s : State), s.owner = .swd → ackReceived s = 0b001 →
    exec (.swdRead apndp a) s = .next { s with
      mode := ⟨.out, .out, s.mode.rst⟩
      lat := ⟨true, false, s.lat.rst⟩
      dly := 0
      bitcnt := 8
      phase := .idle
      req := makeRequest apndp true a
      ack := 0b001
      shreg := wordReceived s
      par := parityReceived s
      rsp := if parityReceived s = parity32 (wordReceived s) then ⟨.ok, wordReceived s, true⟩ else ⟨.badParity, 0, true⟩
      busy := false
      env := s.env.drop 37
      samples := s.samples + 37
      trace := s.trace ++ under s.phase (modeEvents s.mode.clk .clk .out) ++
        under .requestSent (modeEvents s.mode.dio .dio .out ++
          sendEvents s.halfPeriod.toNat 8 ((makeRequest apndp true a).setWidth 32)) ++
        under .ackPhase (.mode .dio .inp :: recvEvents s.halfPeriod.toNat 4 (answer s)) ++
        under .dataPhase (recvEvents s.halfPeriod.toNat 33 (answersFrom s 4)) ++
        under .trailingIdle (.mode .dio .out :: sendEvents s.halfPeriod.toNat 8 0 ++ [.write .dio false]) }

/-- R202, R101: a read whose ACK is not OK, whatever the code: 4 low bits, the data line floats, the ACK error is returned.
The event order and the sample instant inside a bit are the spec's choices (D8, log 16), and `bitcnt` at rest is the model's
reading of R30 (log 14). `shreg` after a failed ACK phase is the model's reading of R32 (log 13). The WAIT and FAULT codes
and the request layout are the spec's general knowledge (D6, D7, log 15). Which phase labels which clocks is the spec's
choice (R200, D19). -/
def Obligations.SwdReadWithAckError : Prop :=
  ∀ (apndp : Bool) (a : BitVec 2) (s : State), s.owner = .swd → ackReceived s ≠ 0b001 →
    exec (.swdRead apndp a) s = .next { s with
      mode := ⟨.out, .inp, s.mode.rst⟩
      lat := ⟨true, false, s.lat.rst⟩
      dly := 0
      bitcnt := 4
      phase := .idle
      req := makeRequest apndp true a
      ack := ackReceived s
      shreg := received (answer s) 4
      rsp := ⟨if ackReceived s = 0b010 then .ackWait else if ackReceived s = 0b100 then .ackFault else .ackNoResponse,
              0, true⟩
      busy := false
      env := s.env.drop 4
      samples := s.samples + 4
      trace := s.trace ++ under s.phase (modeEvents s.mode.clk .clk .out) ++
        under .requestSent (modeEvents s.mode.dio .dio .out ++
          sendEvents s.halfPeriod.toNat 8 ((makeRequest apndp true a).setWidth 32)) ++
        under .ackPhase (.mode .dio .inp :: recvEvents s.halfPeriod.toNat 4 (answer s)) ++
        under .errorFlush (.mode .dio .out :: sendEvents s.halfPeriod.toNat 4 0 ++ [.mode .dio .inp]) }

/-- R204: a write whose ACK is OK: the data, its computed parity, 8 low bits, no data returned. The event order and the
sample instant inside a bit are the spec's choices (D8, log 16), and `bitcnt` at rest is the model's reading of R30 (log
14). That DIO rests driven low is the spec's choice D11. The request layout is the spec's general knowledge (D6, log 15).
Which phase labels which clocks is the spec's choice (R200, D19). -/
def Obligations.SwdWriteWithAckOk : Prop :=
  ∀ (apndp : Bool) (a : BitVec 2) (data : Word) (s : State), s.owner = .swd → ackReceived s = 0b001 →
    exec (.swdWrite apndp a data) s = .next { s with
      mode := ⟨.out, .out, s.mode.rst⟩
      lat := ⟨true, false, s.lat.rst⟩
      dly := 0
      bitcnt := 8
      phase := .idle
      req := makeRequest apndp false a
      ack := 0b001
      shreg := data
      par := parity32 data
      rsp := ⟨.ok, 0, true⟩
      busy := false
      env := s.env.drop 5
      samples := s.samples + 5
      trace := s.trace ++ under s.phase (modeEvents s.mode.clk .clk .out) ++
        under .requestSent (modeEvents s.mode.dio .dio .out ++
          sendEvents s.halfPeriod.toNat 8 ((makeRequest apndp false a).setWidth 32)) ++
        under .ackPhase (.mode .dio .inp :: recvEvents s.halfPeriod.toNat 5 (answer s)) ++
        under .dataSend (.mode .dio .out :: sendEvents s.halfPeriod.toNat 32 data ++
          engOutEvents s.halfPeriod.toNat (parity32 data)) ++
        under .trailingIdle (sendEvents s.halfPeriod.toNat 8 0) }

/-- R202, R204: a write whose ACK is not OK: no data bit is sent, 4 low bits, the data line floats, the ACK error. The event
order and the sample instant inside a bit are the spec's choices (D8, log 16), and `bitcnt` at rest is the model's reading
of R30 (log 14). `shreg` after a failed ACK phase is the model's reading of R32 (log 13). The WAIT and FAULT codes and the
request layout are the spec's general knowledge (D6, D7, log 15). Which phase labels which clocks is the spec's choice
(R200, D19). -/
def Obligations.SwdWriteWithAckError : Prop :=
  ∀ (apndp : Bool) (a : BitVec 2) (data : Word) (s : State), s.owner = .swd → ackReceived s ≠ 0b001 →
    exec (.swdWrite apndp a data) s = .next { s with
      mode := ⟨.out, .inp, s.mode.rst⟩
      lat := ⟨true, false, s.lat.rst⟩
      dly := 0
      bitcnt := 4
      phase := .idle
      req := makeRequest apndp false a
      ack := ackReceived s
      shreg := received (answer s) 5
      rsp := ⟨if ackReceived s = 0b010 then .ackWait else if ackReceived s = 0b100 then .ackFault else .ackNoResponse,
              0, true⟩
      busy := false
      env := s.env.drop 5
      samples := s.samples + 5
      trace := s.trace ++ under s.phase (modeEvents s.mode.clk .clk .out) ++
        under .requestSent (modeEvents s.mode.dio .dio .out ++
          sendEvents s.halfPeriod.toNat 8 ((makeRequest apndp false a).setWidth 32)) ++
        under .ackPhase (.mode .dio .inp :: recvEvents s.halfPeriod.toNat 5 (answer s)) ++
        under .errorFlush (.mode .dio .out :: sendEvents s.halfPeriod.toNat 4 0 ++ [.mode .dio .inp]) }

/-- R205: SWD.CONFIGURE confirms the one configuration and reports any other as unsupported; it writes nothing. It is
refused to who does not hold the bus. The coding of the operands is the spec's general knowledge (D23, log 15). -/
def Obligations.SwdConfigureAcceptsOneConfiguration : Prop :=
  ∀ (trn : BitVec 2) (dph : Bool) (s : State),
    (s.owner = .swd → exec (.swdConfigure trn dph) s = .next { s with
      rsp := ⟨if trn = 0 ∧ dph = false then .ok else .unsupportedConfiguration, 0, true⟩
      busy := false }) ∧
    (s.owner ≠ .swd → exec (.swdConfigure trn dph) s = .next { s with rsp := ⟨.refused, 0, true⟩, busy := false })

/-- R202, R106: after any ACK other than OK, on a read and on a write, exactly 4 low bits are driven and the data line
floats: these are the last events, no data bit and no trailing bit is clocked, and the lines rest as the rule says. The
order of the two writes inside each flush bit is the spec's choice D8, on which no claim may rest (log 16). -/
def Obligations.NonOkAckFlushesFourLowBits : Prop :=
  ∀ (apndp : Bool) (a : BitVec 2) (data : Word) (s : State) (i : Instr), s.owner = .swd → ackReceived s ≠ 0b001 →
    (i = .swdRead apndp a ∨ i = .swdWrite apndp a data) → ∃ t es,
      exec i s = .next t ∧
      newEvents s t = es ++ (.mode .dio .out :: sendEvents s.halfPeriod.toNat 4 0 ++ [.mode .dio .inp]) ∧
      clockCount es = 8 + (if i = .swdRead apndp a then 4 else 5) ∧
      t.mode.clk = .out ∧ t.lat.clk = true ∧ t.mode.dio = .inp ∧ t.lat.dio = false

/-- R107: the four complete frames, seen clock cycle by clock cycle on the data line. -/
def Obligations.TransactionFramesOnTheWire : Prop :=
  ∀ (apndp : Bool) (a : BitVec 2) (data : Word) (s : State), s.owner = .swd →
    (∃ t, exec (.swdRead apndp a) s = .next t ∧
      cyclesBetween s t =
        (List.range 8).map (fun i => .drive ((makeRequest apndp true a).getLsbD i)) ++
        (List.range 4).map (fun i => .listen (some (answer s i))) ++
        (if ackReceived s = 0b001 then
          (List.range 33).map (fun i => .listen (some (answer s (4 + i)))) ++ List.replicate 8 (.drive false)
        else List.replicate 4 (.drive false))) ∧
    (∃ t, exec (.swdWrite apndp a data) s = .next t ∧
      cyclesBetween s t =
        (List.range 8).map (fun i => .drive ((makeRequest apndp false a).getLsbD i)) ++
        (List.range 5).map (fun i => .listen (some (answer s i))) ++
        (if ackReceived s = 0b001 then
          (List.range 32).map (fun i => .drive (data.getLsbD i)) ++ .drive (parity32 data) ::
            List.replicate 8 (.drive false)
        else List.replicate 4 (.drive false)))

/-- R108: the number of clock cycles of a transaction is decided by its ACK, and a parity error does not change it. -/
def Obligations.TransactionLengths : Prop :=
  ∀ (apndp : Bool) (a : BitVec 2) (data : Word) (s : State), s.owner = .swd →
    (∃ t, exec (.swdRead apndp a) s = .next t ∧
      clockCount (newEvents s t) = if ackReceived s = 0b001 then 53 else 16) ∧
    (∃ t, exec (.swdWrite apndp a data) s = .next t ∧
      clockCount (newEvents s t) = if ackReceived s = 0b001 then 54 else 17)

/-- R200: the clock cycles each phase labels, from an idle block. That the trace records the phase is the model's (log 6).
In R200's words, "the assignment of clock cycles to names, and the name `ErrorFlush`, are the spec's": all of it is the
spec's own choice (D19, log 23). -/
def Obligations.PhasesLabelTheirClocks : Prop :=
  ∀ (apndp : Bool) (a : BitVec 2) (data : Word) (s t : State) (ok : Bool),
    s.owner = .swd → s.phase = .idle → ok = decide (ackReceived s = 0b001) →
    (exec (.swdRead apndp a) s = .next t →
      t.phase = .idle ∧ clocksInPhase .idle s t = 0 ∧ clocksInPhase .requestSent s t = 8 ∧
      clocksInPhase .ackPhase s t = 4 ∧ clocksInPhase .dataPhase s t = (if ok then 33 else 0) ∧
      clocksInPhase .dataSend s t = 0 ∧ clocksInPhase .trailingIdle s t = (if ok then 8 else 0) ∧
      clocksInPhase .errorFlush s t = (if ok then 0 else 4)) ∧
    (exec (.swdWrite apndp a data) s = .next t →
      t.phase = .idle ∧ clocksInPhase .idle s t = 0 ∧ clocksInPhase .requestSent s t = 8 ∧
      clocksInPhase .ackPhase s t = 5 ∧ clocksInPhase .dataPhase s t = 0 ∧
      clocksInPhase .dataSend s t = (if ok then 33 else 0) ∧
      clocksInPhase .trailingIdle s t = (if ok then 8 else 0) ∧
      clocksInPhase .errorFlush s t = (if ok then 0 else 4))

/-- R321: the lower bounds on duration of transactions and SWJ operations, in processor cycles. -/
def Obligations.DurationLowerBounds : Prop :=
  ∀ (s t : State),
    (∀ apndp a, s.owner = .swd → exec (.swdRead apndp a) s = .next t →
      delayTotal (newEvents s t) = (if ackReceived s = 0b001 then 106 else 32) * s.halfPeriod.toNat) ∧
    (∀ apndp a data, s.owner = .swd → exec (.swdWrite apndp a data) s = .next t →
      delayTotal (newEvents s t) = (if ackReceived s = 0b001 then 108 else 34) * s.halfPeriod.toNat) ∧
    (∀ bitCount bytes, exec (.swjClockSequence bitCount bytes) s = .next t →
      delayTotal (newEvents s t) = 2 * s.halfPeriod.toNat * min bitCount.toNat (8 * bytes.length)) ∧
    (∀ levels mask settleUs, exec (.swjDrive levels mask settleUs) s = .next t →
      delayTotal (newEvents s t) = settleUs.toNat * s.cyclesPerUs.toNat)

/-- R100: the samples of the turnaround cycles never matter: two runs whose environments differ in nothing else give the same
response. -/
def Obligations.TurnaroundSamplesAreIgnored : Prop :=
  ∀ (apndp : Bool) (a : BitVec 2) (data : Word) (s u s' u' : State), s.owner = .swd → u.owner = .swd →
    ((∀ k, k ≠ 0 → answer s k = answer u k) →
      exec (.swdRead apndp a) s = .next s' → exec (.swdRead apndp a) u = .next u' → s'.rsp = u'.rsp) ∧
    ((∀ k, k ≠ 0 → k ≠ 4 → answer s k = answer u k) →
      exec (.swdWrite apndp a data) s = .next s' → exec (.swdWrite apndp a data) u = .next u' → s'.rsp = u'.rsp)

/-! ### Wire frames -/

/-- R94, R96, R201, R204: the request frame of either direction drives the clock, then sends its 8 bits LSB first. That the
frame is this piece of a transaction is the model's reading (log 9), and the layout the spec's general knowledge (D6, log
15). The event order and the sample instant inside a bit are the spec's choices (D8, log 16), and `bitcnt` at rest is the
model's reading of R30 (log 14). Which phase labels which clocks is the spec's choice (R200, D19). -/
def Obligations.WireRequestSendsTheByte : Prop :=
  ∀ (apndp rnw : Bool) (a : BitVec 2) (s : State),
    exec (if rnw then .wireRequestRead apndp a else .wireRequestWrite apndp a) s = .next { s with
      mode := ⟨.out, .out, s.mode.rst⟩
      lat := ⟨true, true, s.lat.rst⟩
      dly := 0
      bitcnt := 8
      phase := .requestSent
      req := makeRequest apndp rnw a
      trace := s.trace ++ under s.phase (modeEvents s.mode.clk .clk .out) ++
        under .requestSent (modeEvents s.mode.dio .dio .out ++
          sendEvents s.halfPeriod.toNat 8 ((makeRequest apndp rnw a).setWidth 32)) }

/-- R98, R100: an ACK phase that carries `v` puts bits 3 to 1 of `v` into `ack`, on the 4-bit and on the 5-bit path. That
the frame scripts the environment's answers is the model's reading (log 9), and that `v` is left in `shreg` its reading of
R32 (log 13); the fault with CLK not driven is the model half of R134 (D24, log 11). The event order and the sample instant
inside a bit are the spec's choices (D8, log 16), and `bitcnt` at rest is the model's reading of R30 (log 14). Which phase
labels which clocks is the spec's choice (R200, D19). -/
def Obligations.WireAckPhaseExtractsTheCode : Prop :=
  (∀ (v : BitVec 4) (s : State), s.mode.clk = .out →
    exec (.wireAckphaseRead v) s = .next { s with
      mode := ⟨.out, .inp, s.mode.rst⟩
      lat := ⟨true, s.lat.dio, s.lat.rst⟩
      dly := 0
      bitcnt := 4
      phase := .ackPhase
      ack := v.extractLsb' 1 3
      shreg := v.setWidth 32
      samples := s.samples + 4
      trace := s.trace ++ under .ackPhase (modeEvents s.mode.dio .dio .inp ++
        recvEvents s.halfPeriod.toNat 4 v.getLsbD) }) ∧
  (∀ (v : BitVec 5) (s : State), s.mode.clk = .out →
    exec (.wireAckphaseWrite v) s = .next { s with
      mode := ⟨.out, .inp, s.mode.rst⟩
      lat := ⟨true, s.lat.dio, s.lat.rst⟩
      dly := 0
      bitcnt := 5
      phase := .ackPhase
      ack := v.extractLsb' 1 3
      shreg := v.setWidth 32
      samples := s.samples + 5
      trace := s.trace ++ under .ackPhase (modeEvents s.mode.dio .dio .inp ++
        recvEvents s.halfPeriod.toNat 5 v.getLsbD) }) ∧
  (∀ (v : BitVec 4) (w : BitVec 5) (s : State), s.mode.clk ≠ .out →
    exec (.wireAckphaseRead v) s = .fault .pinModeMisuse ∧ exec (.wireAckphaseWrite w) s = .fault .pinModeMisuse)

/-- R101, R200: the ACK code OK leads on to the data phase of the direction the request asked for. That the frame is this
decision is the model's reading (log 9); that the direction is bit 2 of `req` is the request layout, the spec's general
knowledge (R94, D6, log 15). -/
def Obligations.WireAckOkLeadsToTheDataPhase : Prop :=
  ∀ s : State, exec .wireAckOk s = .next { s with
    ack := 0b001
    phase := if s.req.getLsbD 2 then .dataPhase else .dataSend }

/-- R101, R202: the ACK codes WAIT and FAULT lead to the flush and the error of their name, and a code that is none of the
three, issued as the sequencer's next frame, to the flush and `AckNoResponse`; with CLK not driven the flush is mode misuse.
That the frame is this branch is the model's reading (log 9); the WAIT and FAULT codes are the spec's general knowledge (D7,
log 15); the fault is the model half of R134 (D24, log 11); the event order inside a bit is the spec's choice (D8, log 16),
and `bitcnt` at rest the model's reading of R30 (log 14). Which phase labels which clocks is the spec's choice (R200, D19).
-/
def Obligations.WireAckErrorsFlush : Prop :=
  (∀ (wait : Bool) (s : State), s.mode.clk = .out →
    exec (if wait then .wireAckWait else .wireAckFault) s = .next { s with
      mode := ⟨.out, .inp, s.mode.rst⟩
      lat := ⟨true, false, s.lat.rst⟩
      dly := 0
      bitcnt := 4
      phase := .idle
      ack := if wait then 0b010 else 0b100
      rsp := ⟨if wait then .ackWait else .ackFault, 0, true⟩
      busy := false
      trace := s.trace ++ under .errorFlush (modeEvents s.mode.dio .dio .out ++
        sendEvents s.halfPeriod.toNat 4 0 ++ [.mode .dio .inp]) }) ∧
  (∀ (c : BitVec 3) (s : State) (rest : List SeqFrame), c ≠ 0b001 → c ≠ 0b010 → c ≠ 0b100 →
    s.useq = .ack c :: rest → s.mode.clk = .out →
    step s = .next { s with
      useq := rest
      mode := ⟨.out, .inp, s.mode.rst⟩
      lat := ⟨true, false, s.lat.rst⟩
      dly := 0
      bitcnt := 4
      phase := .idle
      ack := c
      rsp := ⟨.ackNoResponse, 0, true⟩
      busy := false
      trace := s.trace ++ under .errorFlush (modeEvents s.mode.dio .dio .out ++
        sendEvents s.halfPeriod.toNat 4 0 ++ [.mode .dio .inp]) }) ∧
  (∀ s : State, s.mode.clk ≠ .out →
    exec .wireAckWait s = .fault .pinModeMisuse ∧ exec .wireAckFault s = .fault .pinModeMisuse ∧
    (∀ (c : BitVec 3) (rest : List SeqFrame), c ≠ 0b001 → c ≠ 0b010 → c ≠ 0b100 → s.useq = .ack c :: rest →
      step s = .fault .pinModeMisuse))

/-- R107, R200, R202: a read or write whose ACK is not OK is its frames, one after the other: the request, the ACK phase
that carries what the environment answers, the ACK code received, which for WAIT and FAULT is the frame of their name. That
the frames are these pieces is the model's reading (log 9); the WAIT and FAULT codes are the spec's general knowledge (R101,
D7, log 15). -/
def Obligations.AnErrorTransactionIsItsFrames : Prop :=
  ∀ (apndp : Bool) (a : BitVec 2) (data : Word) (v : BitVec 4) (w : BitVec 5) (s : State), s.owner = .swd →
    ackReceived s ≠ 0b001 →
    ((∀ i, i < 4 → v.getLsbD i = answer s i) → ∃ s1 s2,
      exec (.wireRequestRead apndp a) s = .next s1 ∧
      exec (.wireAckphaseRead v) { s1 with env := s1.env.drop 4 } = .next s2 ∧
      step { s2 with useq := .ack (ackReceived s) :: s2.useq } = exec (.swdRead apndp a) s ∧
      (ackReceived s = 0b010 → exec .wireAckWait s2 = exec (.swdRead apndp a) s) ∧
      (ackReceived s = 0b100 → exec .wireAckFault s2 = exec (.swdRead apndp a) s)) ∧
    ((∀ i, i < 5 → w.getLsbD i = answer s i) → ∃ s1 s2,
      exec (.wireRequestWrite apndp a) s = .next s1 ∧
      exec (.wireAckphaseWrite w) { s1 with env := s1.env.drop 5 } = .next s2 ∧
      step { s2 with useq := .ack (ackReceived s) :: s2.useq } = exec (.swdWrite apndp a data) s ∧
      (ackReceived s = 0b010 → exec .wireAckWait s2 = exec (.swdWrite apndp a data) s) ∧
      (ackReceived s = 0b100 → exec .wireAckFault s2 = exec (.swdWrite apndp a data) s))

/-! ### Refusals, errors, completion -/

/-- R114 (a), R286, R272 (a): each of the ten codes that name no operation has one effect, the answer `Refused`; the same
answer, and nothing else, is what an external operation gives in an owner state that does not permit it. -/
def Obligations.WhatIsNotPermittedIsRefused : Prop :=
  (∀ (i : Instr) (s : State), namesNoOperation i = true →
    exec i s = .next { s with rsp := ⟨.refused, 0, true⟩, busy := false }) ∧
  (∀ (i : Instr) (s : State), isExternal i = true → permitted s.owner i = false →
    exec i s = .next { s with rsp := ⟨.refused, 0, true⟩, busy := false })

/-- R286, R322, R326: every operation the owner state permits is performed to the end: unless it asks for 0 Hz it gives a
next state with exactly one response, never `Refused`, and the block is no longer busy. R325: a run of any offers, permitted
or not, none asking for 0 Hz, ends, with one response to each operation. That one step performs one operation of the run is
the model's (log 1, log 7). -/
def Obligations.WhatIsPermittedCompletes : Prop :=
  (∀ (i : Instr) (s : State), permitted s.owner i = true → requestedHz i ≠ some 0 →
    ∃ t, exec i s = .next t ∧ t.rsp.valid = true ∧ t.rsp.status ≠ .refused ∧ t.busy = false) ∧
  (∀ (r : RunInput) (s : State), Inv s →
    (∀ p ∈ r.ops, ∀ i, decode (.command p) = .ok i → requestedHz i ≠ some 0) →
    ∃ q, runFrom r s = .next q ∧ q.responses.length = r.ops.length ∧ (∀ x ∈ q.responses, x.valid = true) ∧
      q.responses.getLast?.getD s.rsp = q.final.rsp ∧ RunEnded r q.final)

/-- R135 for the machine as a whole: a step of a block whose sequencer issues nothing on its own never stops on mode misuse;
and no step at all lacks a meaning, whatever is offered or issued. What bits that encode nothing do in the sequencer's own
register is the model's reading (log 24). -/
def Obligations.NoStepMisusesAPin : Prop :=
  (∀ s : State, s.useq = [] → step s ≠ .fault .pinModeMisuse) ∧ (∀ (s : State) (r : Refusal), step s ≠ .refused r)

/-- R71: configuring, asking for a clock, asking whether JTAG is available, the stub's sequences, and whatever is refused cause
no pin event. -/
def Obligations.PinlessOperationsLeaveTheTrace : Prop :=
  ∀ (i : Instr) (s t : State), exec i s = .next t →
    ((∃ trn dph, i = .swdConfigure trn dph) ∨ (∃ hz, requestedHz i = some hz) ∨ i = .jtagAvailable ∨
      (∃ n bs, i = .jtagSequences n bs) ∨ (isOffer i = true ∧ permitted s.owner i = false)) →
    t.trace = s.trace ∧ t.mode = s.mode ∧ t.lat = s.lat

/-- R172, R310: no operation that can be offered ever writes a 1 to the reset line's latch. -/
def Obligations.ResetLineIsNeverDrivenHigh : Prop :=
  ∀ (i : Instr) (s t : State), isOffer i = true → exec i s = .next t →
    (∀ e ∈ newEvents s t, e ≠ .write .rst true) ∧ (t.lat.rst = s.lat.rst ∨ t.lat.rst = false)

/-! ### Rules of the whole machine -/

/-- R26: `cpu_freq` and `cycles_per_us` are written by TIM.CONFIGURE only; `max_freq` and `half_period` by it and by an
accepted clock request only. -/
def Obligations.TimingRegistersHaveTheirWriters : Prop :=
  ∀ (i : Instr) (s t : State), exec i s = .next t → (∀ cpu max, i ≠ .timConfigure cpu max) →
    t.cpuFreq = s.cpuFreq ∧ t.cyclesPerUs = s.cyclesPerUs ∧
    ((t.maxFreq = s.maxFreq ∧ t.halfPeriod = s.halfPeriod) ∨
      ∃ hz, requestedHz i = some hz ∧ hz < s.cpuFreq ∧ t.rsp.status = .ok)

/-- R28, R287: the bus changes hands only so: taken when free, by the engine that acquires; freed by its holder's release or by
SUSPEND. -/
def Obligations.OwnerChangesOnlyByHandoff : Prop :=
  ∀ (i : Instr) (s t : State), exec i s = .next t → t.owner ≠ s.owner →
    (s.owner = .free ∧ ((i = .swdAcquire ∧ t.owner = .swd) ∨ (i = .jtagAcquire ∧ t.owner = .jtag))) ∨
    (t.owner = .free ∧ Released t ∧
      (i = .suspend ∨ (i = .swdRelease ∧ s.owner = .swd) ∨ (i = .jtagRelease ∧ s.owner = .jtag)))

/-- R72: the wire trace only grows, and no operation touches what is still offered or still to be issued. -/
def Obligations.TraceOnlyGrows : Prop :=
  ∀ (i : Instr) (s t : State), exec i s = .next t →
    (∃ es, t.trace = s.trace ++ es) ∧ t.offers = s.offers ∧ t.useq = s.useq

/-- R31 to R34: `req` is written by reads, writes and request frames only, `ack` by reads, writes and ACK frames only, `par`
by reads and writes only, and a refused read or write writes none of them. That the frames write `req` and `ack` is the
model's reading (log 9). -/
def Obligations.TransactionRegistersHaveTheirWriters : Prop :=
  ∀ (i : Instr) (s t : State), exec i s = .next t →
    ((∀ ap a, i ≠ .swdRead ap a ∨ s.owner ≠ .swd) → (∀ ap a d, i ≠ .swdWrite ap a d ∨ s.owner ≠ .swd) →
      t.par = s.par ∧
      ((∀ ap a, i ≠ .wireRequestRead ap a ∧ i ≠ .wireRequestWrite ap a) → t.req = s.req) ∧
      ((∀ v, i ≠ .wireAckphaseRead v) → (∀ v, i ≠ .wireAckphaseWrite v) →
        i ≠ .wireAckOk → i ≠ .wireAckWait → i ≠ .wireAckFault → t.ack = s.ack))
end

