-- ==== Sys2Proof/Laws/State.lean ====
section
/-! SUPPORT. One lemma per field per state update, so that no proof unfolds a record update. -/

namespace Sys2Proof.Machine

/-! ### Per-line arrays -/

@[simp] theorem PerLine.get_set_same {α : Type} (p : PerLine α) (L : Line) (x : α) : (p.set L x).get L = x := by
  cases L <;> rfl

theorem PerLine.get_set_other {α : Type} (p : PerLine α) {L K : Line} (x : α) (h : K ≠ L) :
    (p.set L x).get K = p.get K := by
  cases L <;> cases K <;> first | rfl | exact absurd rfl h

theorem PerLine.set_get_self {α : Type} (p : PerLine α) (L : Line) : p.set L (p.get L) = p := by
  cases L <;> rfl

@[simp] theorem PerLine.set_clk_clk {α : Type} (p : PerLine α) (x : α) : (p.set .clk x).clk = x := rfl
@[simp] theorem PerLine.set_clk_dio {α : Type} (p : PerLine α) (x : α) : (p.set .clk x).dio = p.dio := rfl
@[simp] theorem PerLine.set_clk_rst {α : Type} (p : PerLine α) (x : α) : (p.set .clk x).rst = p.rst := rfl
@[simp] theorem PerLine.get_clk {α : Type} (p : PerLine α) : p.get .clk = p.clk := rfl
@[simp] theorem PerLine.set_dio_clk {α : Type} (p : PerLine α) (x : α) : (p.set .dio x).clk = p.clk := rfl
@[simp] theorem PerLine.set_dio_dio {α : Type} (p : PerLine α) (x : α) : (p.set .dio x).dio = x := rfl
@[simp] theorem PerLine.set_dio_rst {α : Type} (p : PerLine α) (x : α) : (p.set .dio x).rst = p.rst := rfl
@[simp] theorem PerLine.get_dio {α : Type} (p : PerLine α) : p.get .dio = p.dio := rfl
@[simp] theorem PerLine.set_rst_clk {α : Type} (p : PerLine α) (x : α) : (p.set .rst x).clk = p.clk := rfl
@[simp] theorem PerLine.set_rst_dio {α : Type} (p : PerLine α) (x : α) : (p.set .rst x).dio = p.dio := rfl
@[simp] theorem PerLine.set_rst_rst {α : Type} (p : PerLine α) (x : α) : (p.set .rst x).rst = x := rfl
@[simp] theorem PerLine.get_rst {α : Type} (p : PerLine α) : p.get .rst = p.rst := rfl

/-! ### record -/

@[simp] theorem record_mode (e : Event) (s : State) : (record e s).mode = s.mode := rfl
@[simp] theorem record_lat (e : Event) (s : State) : (record e s).lat = s.lat := rfl
@[simp] theorem record_cpuFreq (e : Event) (s : State) : (record e s).cpuFreq = s.cpuFreq := rfl
@[simp] theorem record_maxFreq (e : Event) (s : State) : (record e s).maxFreq = s.maxFreq := rfl
@[simp] theorem record_cyclesPerUs (e : Event) (s : State) : (record e s).cyclesPerUs = s.cyclesPerUs := rfl
@[simp] theorem record_halfPeriod (e : Event) (s : State) : (record e s).halfPeriod = s.halfPeriod := rfl
@[simp] theorem record_owner (e : Event) (s : State) : (record e s).owner = s.owner := rfl
@[simp] theorem record_phase (e : Event) (s : State) : (record e s).phase = s.phase := rfl
@[simp] theorem record_bitcnt (e : Event) (s : State) : (record e s).bitcnt = s.bitcnt := rfl
@[simp] theorem record_req (e : Event) (s : State) : (record e s).req = s.req := rfl
@[simp] theorem record_ack (e : Event) (s : State) : (record e s).ack = s.ack := rfl
@[simp] theorem record_shreg (e : Event) (s : State) : (record e s).shreg = s.shreg := rfl
@[simp] theorem record_par (e : Event) (s : State) : (record e s).par = s.par := rfl
@[simp] theorem record_dly (e : Event) (s : State) : (record e s).dly = s.dly := rfl
@[simp] theorem record_rsp (e : Event) (s : State) : (record e s).rsp = s.rsp := rfl
@[simp] theorem record_busy (e : Event) (s : State) : (record e s).busy = s.busy := rfl
@[simp] theorem record_offers (e : Event) (s : State) : (record e s).offers = s.offers := rfl
@[simp] theorem record_useq (e : Event) (s : State) : (record e s).useq = s.useq := rfl
@[simp] theorem record_env (e : Event) (s : State) : (record e s).env = s.env := rfl
@[simp] theorem record_samples (e : Event) (s : State) : (record e s).samples = s.samples := rfl
@[simp] theorem record_trace (e : Event) (s : State) : (record e s).trace = s.trace ++ [⟨s.phase, e⟩] := rfl

/-! ### delay -/

@[simp] theorem delay_mode (n : Nat) (s : State) : (delay n s).mode = s.mode := rfl
@[simp] theorem delay_lat (n : Nat) (s : State) : (delay n s).lat = s.lat := rfl
@[simp] theorem delay_cpuFreq (n : Nat) (s : State) : (delay n s).cpuFreq = s.cpuFreq := rfl
@[simp] theorem delay_maxFreq (n : Nat) (s : State) : (delay n s).maxFreq = s.maxFreq := rfl
@[simp] theorem delay_cyclesPerUs (n : Nat) (s : State) : (delay n s).cyclesPerUs = s.cyclesPerUs := rfl
@[simp] theorem delay_halfPeriod (n : Nat) (s : State) : (delay n s).halfPeriod = s.halfPeriod := rfl
@[simp] theorem delay_owner (n : Nat) (s : State) : (delay n s).owner = s.owner := rfl
@[simp] theorem delay_phase (n : Nat) (s : State) : (delay n s).phase = s.phase := rfl
@[simp] theorem delay_bitcnt (n : Nat) (s : State) : (delay n s).bitcnt = s.bitcnt := rfl
@[simp] theorem delay_req (n : Nat) (s : State) : (delay n s).req = s.req := rfl
@[simp] theorem delay_ack (n : Nat) (s : State) : (delay n s).ack = s.ack := rfl
@[simp] theorem delay_shreg (n : Nat) (s : State) : (delay n s).shreg = s.shreg := rfl
@[simp] theorem delay_par (n : Nat) (s : State) : (delay n s).par = s.par := rfl
@[simp] theorem delay_dly (n : Nat) (s : State) : (delay n s).dly = 0 := rfl
@[simp] theorem delay_rsp (n : Nat) (s : State) : (delay n s).rsp = s.rsp := rfl
@[simp] theorem delay_busy (n : Nat) (s : State) : (delay n s).busy = s.busy := rfl
@[simp] theorem delay_offers (n : Nat) (s : State) : (delay n s).offers = s.offers := rfl
@[simp] theorem delay_useq (n : Nat) (s : State) : (delay n s).useq = s.useq := rfl
@[simp] theorem delay_env (n : Nat) (s : State) : (delay n s).env = s.env := rfl
@[simp] theorem delay_samples (n : Nat) (s : State) : (delay n s).samples = s.samples := rfl
@[simp] theorem delay_trace (n : Nat) (s : State) : (delay n s).trace = s.trace ++ [⟨s.phase, .delay n⟩] := rfl

/-! ### dropAnswers -/

@[simp] theorem dropAnswers_mode (k : Nat) (s : State) : (dropAnswers k s).mode = s.mode := rfl
@[simp] theorem dropAnswers_lat (k : Nat) (s : State) : (dropAnswers k s).lat = s.lat := rfl
@[simp] theorem dropAnswers_cpuFreq (k : Nat) (s : State) : (dropAnswers k s).cpuFreq = s.cpuFreq := rfl
@[simp] theorem dropAnswers_maxFreq (k : Nat) (s : State) : (dropAnswers k s).maxFreq = s.maxFreq := rfl
@[simp] theorem dropAnswers_cyclesPerUs (k : Nat) (s : State) : (dropAnswers k s).cyclesPerUs = s.cyclesPerUs := rfl
@[simp] theorem dropAnswers_halfPeriod (k : Nat) (s : State) : (dropAnswers k s).halfPeriod = s.halfPeriod := rfl
@[simp] theorem dropAnswers_owner (k : Nat) (s : State) : (dropAnswers k s).owner = s.owner := rfl
@[simp] theorem dropAnswers_phase (k : Nat) (s : State) : (dropAnswers k s).phase = s.phase := rfl
@[simp] theorem dropAnswers_bitcnt (k : Nat) (s : State) : (dropAnswers k s).bitcnt = s.bitcnt := rfl
@[simp] theorem dropAnswers_req (k : Nat) (s : State) : (dropAnswers k s).req = s.req := rfl
@[simp] theorem dropAnswers_ack (k : Nat) (s : State) : (dropAnswers k s).ack = s.ack := rfl
@[simp] theorem dropAnswers_shreg (k : Nat) (s : State) : (dropAnswers k s).shreg = s.shreg := rfl
@[simp] theorem dropAnswers_par (k : Nat) (s : State) : (dropAnswers k s).par = s.par := rfl
@[simp] theorem dropAnswers_dly (k : Nat) (s : State) : (dropAnswers k s).dly = s.dly := rfl
@[simp] theorem dropAnswers_rsp (k : Nat) (s : State) : (dropAnswers k s).rsp = s.rsp := rfl
@[simp] theorem dropAnswers_busy (k : Nat) (s : State) : (dropAnswers k s).busy = s.busy := rfl
@[simp] theorem dropAnswers_offers (k : Nat) (s : State) : (dropAnswers k s).offers = s.offers := rfl
@[simp] theorem dropAnswers_useq (k : Nat) (s : State) : (dropAnswers k s).useq = s.useq := rfl
@[simp] theorem dropAnswers_env (k : Nat) (s : State) : (dropAnswers k s).env = s.env.drop k := rfl
@[simp] theorem dropAnswers_samples (k : Nat) (s : State) : (dropAnswers k s).samples = s.samples + k := rfl
@[simp] theorem dropAnswers_trace (k : Nat) (s : State) : (dropAnswers k s).trace = s.trace := rfl

/-! ### respond -/

@[simp] theorem respond_mode (st : Status) (d : Word) (s : State) : (respond st d s).mode = s.mode := rfl
@[simp] theorem respond_lat (st : Status) (d : Word) (s : State) : (respond st d s).lat = s.lat := rfl
@[simp] theorem respond_cpuFreq (st : Status) (d : Word) (s : State) : (respond st d s).cpuFreq = s.cpuFreq := rfl
@[simp] theorem respond_maxFreq (st : Status) (d : Word) (s : State) : (respond st d s).maxFreq = s.maxFreq := rfl
@[simp] theorem respond_cyclesPerUs (st : Status) (d : Word) (s : State) : (respond st d s).cyclesPerUs = s.cyclesPerUs := rfl
@[simp] theorem respond_halfPeriod (st : Status) (d : Word) (s : State) : (respond st d s).halfPeriod = s.halfPeriod := rfl
@[simp] theorem respond_owner (st : Status) (d : Word) (s : State) : (respond st d s).owner = s.owner := rfl
@[simp] theorem respond_phase (st : Status) (d : Word) (s : State) : (respond st d s).phase = s.phase := rfl
@[simp] theorem respond_bitcnt (st : Status) (d : Word) (s : State) : (respond st d s).bitcnt = s.bitcnt := rfl
@[simp] theorem respond_req (st : Status) (d : Word) (s : State) : (respond st d s).req = s.req := rfl
@[simp] theorem respond_ack (st : Status) (d : Word) (s : State) : (respond st d s).ack = s.ack := rfl
@[simp] theorem respond_shreg (st : Status) (d : Word) (s : State) : (respond st d s).shreg = s.shreg := rfl
@[simp] theorem respond_par (st : Status) (d : Word) (s : State) : (respond st d s).par = s.par := rfl
@[simp] theorem respond_dly (st : Status) (d : Word) (s : State) : (respond st d s).dly = s.dly := rfl
@[simp] theorem respond_rsp (st : Status) (d : Word) (s : State) : (respond st d s).rsp = ⟨st, d, true⟩ := rfl
@[simp] theorem respond_busy (st : Status) (d : Word) (s : State) : (respond st d s).busy = false := rfl
@[simp] theorem respond_offers (st : Status) (d : Word) (s : State) : (respond st d s).offers = s.offers := rfl
@[simp] theorem respond_useq (st : Status) (d : Word) (s : State) : (respond st d s).useq = s.useq := rfl
@[simp] theorem respond_env (st : Status) (d : Word) (s : State) : (respond st d s).env = s.env := rfl
@[simp] theorem respond_samples (st : Status) (d : Word) (s : State) : (respond st d s).samples = s.samples := rfl
@[simp] theorem respond_trace (st : Status) (d : Word) (s : State) : (respond st d s).trace = s.trace := rfl

/-! ### refuse -/

@[simp] theorem refuse_mode (s : State) : (refuse s).mode = s.mode := rfl
@[simp] theorem refuse_lat (s : State) : (refuse s).lat = s.lat := rfl
@[simp] theorem refuse_cpuFreq (s : State) : (refuse s).cpuFreq = s.cpuFreq := rfl
@[simp] theorem refuse_maxFreq (s : State) : (refuse s).maxFreq = s.maxFreq := rfl
@[simp] theorem refuse_cyclesPerUs (s : State) : (refuse s).cyclesPerUs = s.cyclesPerUs := rfl
@[simp] theorem refuse_halfPeriod (s : State) : (refuse s).halfPeriod = s.halfPeriod := rfl
@[simp] theorem refuse_owner (s : State) : (refuse s).owner = s.owner := rfl
@[simp] theorem refuse_phase (s : State) : (refuse s).phase = s.phase := rfl
@[simp] theorem refuse_bitcnt (s : State) : (refuse s).bitcnt = s.bitcnt := rfl
@[simp] theorem refuse_req (s : State) : (refuse s).req = s.req := rfl
@[simp] theorem refuse_ack (s : State) : (refuse s).ack = s.ack := rfl
@[simp] theorem refuse_shreg (s : State) : (refuse s).shreg = s.shreg := rfl
@[simp] theorem refuse_par (s : State) : (refuse s).par = s.par := rfl
@[simp] theorem refuse_dly (s : State) : (refuse s).dly = s.dly := rfl
@[simp] theorem refuse_rsp (s : State) : (refuse s).rsp = ⟨.refused, 0, true⟩ := rfl
@[simp] theorem refuse_busy (s : State) : (refuse s).busy = false := rfl
@[simp] theorem refuse_offers (s : State) : (refuse s).offers = s.offers := rfl
@[simp] theorem refuse_useq (s : State) : (refuse s).useq = s.useq := rfl
@[simp] theorem refuse_env (s : State) : (refuse s).env = s.env := rfl
@[simp] theorem refuse_samples (s : State) : (refuse s).samples = s.samples := rfl
@[simp] theorem refuse_trace (s : State) : (refuse s).trace = s.trace := rfl

/-! ### setMode -/

@[simp] theorem setMode_lat (L : Line) (m : Mode) (s : State) : (setMode L m s).lat = s.lat := by unfold setMode; split <;> rfl
@[simp] theorem setMode_cpuFreq (L : Line) (m : Mode) (s : State) : (setMode L m s).cpuFreq = s.cpuFreq := by unfold setMode; split <;> rfl
@[simp] theorem setMode_maxFreq (L : Line) (m : Mode) (s : State) : (setMode L m s).maxFreq = s.maxFreq := by unfold setMode; split <;> rfl
@[simp] theorem setMode_cyclesPerUs (L : Line) (m : Mode) (s : State) : (setMode L m s).cyclesPerUs = s.cyclesPerUs := by unfold setMode; split <;> rfl
@[simp] theorem setMode_halfPeriod (L : Line) (m : Mode) (s : State) : (setMode L m s).halfPeriod = s.halfPeriod := by unfold setMode; split <;> rfl
@[simp] theorem setMode_owner (L : Line) (m : Mode) (s : State) : (setMode L m s).owner = s.owner := by unfold setMode; split <;> rfl
@[simp] theorem setMode_phase (L : Line) (m : Mode) (s : State) : (setMode L m s).phase = s.phase := by unfold setMode; split <;> rfl
@[simp] theorem setMode_bitcnt (L : Line) (m : Mode) (s : State) : (setMode L m s).bitcnt = s.bitcnt := by unfold setMode; split <;> rfl
@[simp] theorem setMode_req (L : Line) (m : Mode) (s : State) : (setMode L m s).req = s.req := by unfold setMode; split <;> rfl
@[simp] theorem setMode_ack (L : Line) (m : Mode) (s : State) : (setMode L m s).ack = s.ack := by unfold setMode; split <;> rfl
@[simp] theorem setMode_shreg (L : Line) (m : Mode) (s : State) : (setMode L m s).shreg = s.shreg := by unfold setMode; split <;> rfl
@[simp] theorem setMode_par (L : Line) (m : Mode) (s : State) : (setMode L m s).par = s.par := by unfold setMode; split <;> rfl
@[simp] theorem setMode_dly (L : Line) (m : Mode) (s : State) : (setMode L m s).dly = s.dly := by unfold setMode; split <;> rfl
@[simp] theorem setMode_rsp (L : Line) (m : Mode) (s : State) : (setMode L m s).rsp = s.rsp := by unfold setMode; split <;> rfl
@[simp] theorem setMode_busy (L : Line) (m : Mode) (s : State) : (setMode L m s).busy = s.busy := by unfold setMode; split <;> rfl
@[simp] theorem setMode_offers (L : Line) (m : Mode) (s : State) : (setMode L m s).offers = s.offers := by unfold setMode; split <;> rfl
@[simp] theorem setMode_useq (L : Line) (m : Mode) (s : State) : (setMode L m s).useq = s.useq := by unfold setMode; split <;> rfl
@[simp] theorem setMode_env (L : Line) (m : Mode) (s : State) : (setMode L m s).env = s.env := by unfold setMode; split <;> rfl
@[simp] theorem setMode_samples (L : Line) (m : Mode) (s : State) : (setMode L m s).samples = s.samples := by unfold setMode; split <;> rfl

theorem setMode_mode (L : Line) (m : Mode) (s : State) : (setMode L m s).mode = s.mode.set L m := by
  unfold setMode
  split
  · next h => rw [← h, PerLine.set_get_self]
  · rfl

@[simp] theorem setMode_clk_mode_clk (m : Mode) (s : State) : (setMode .clk m s).mode.clk = m := by
  rw [setMode_mode]; rfl
@[simp] theorem setMode_clk_mode_dio (m : Mode) (s : State) : (setMode .clk m s).mode.dio = s.mode.dio := by
  rw [setMode_mode]; rfl
@[simp] theorem setMode_clk_mode_rst (m : Mode) (s : State) : (setMode .clk m s).mode.rst = s.mode.rst := by
  rw [setMode_mode]; rfl
@[simp] theorem setMode_dio_mode_clk (m : Mode) (s : State) : (setMode .dio m s).mode.clk = s.mode.clk := by
  rw [setMode_mode]; rfl
@[simp] theorem setMode_dio_mode_dio (m : Mode) (s : State) : (setMode .dio m s).mode.dio = m := by
  rw [setMode_mode]; rfl
@[simp] theorem setMode_dio_mode_rst (m : Mode) (s : State) : (setMode .dio m s).mode.rst = s.mode.rst := by
  rw [setMode_mode]; rfl
@[simp] theorem setMode_rst_mode_clk (m : Mode) (s : State) : (setMode .rst m s).mode.clk = s.mode.clk := by
  rw [setMode_mode]; rfl
@[simp] theorem setMode_rst_mode_dio (m : Mode) (s : State) : (setMode .rst m s).mode.dio = s.mode.dio := by
  rw [setMode_mode]; rfl
@[simp] theorem setMode_rst_mode_rst (m : Mode) (s : State) : (setMode .rst m s).mode.rst = m := by
  rw [setMode_mode]; rfl

/-- A mode event is recorded only on a change (R131). -/
theorem setMode_trace (L : Line) (m : Mode) (s : State) :
    (setMode L m s).trace =
      s.trace ++ (if s.mode.get L = m then [] else [⟨s.phase, .mode L m⟩]) := by
  unfold setMode
  split <;> simp

theorem setMode_of_eq {L : Line} {m : Mode} {s : State} (h : s.mode.get L = m) : setMode L m s = s := by
  simp [setMode, h]

/-! ### The environment's answers -/

/-- Answers are consumed in order (R37): after `k` samples the next one is the `k`-th. -/
theorem answerAt_drop (env : List Bool) (n k j : Nat) : answerAt (env.drop k) (n + k) j = answerAt env n (k + j) := by
  simp [answerAt, List.getElem?_drop, Nat.add_assoc]

@[simp] theorem answer_dropAnswers (k j : Nat) (s : State) : answer (dropAnswers k s) j = answer s (k + j) :=
  answerAt_drop s.env s.samples k j

/-- The answers depend on the script and on how many samples were taken, and on nothing else. -/
theorem answer_congr {s t : State} (he : t.env = s.env) (hs : t.samples = s.samples) : answer t = answer s := by
  simp [answer, he, hs]

/-- An answer the environment scripts is the answer given. -/
theorem answer_scripted {s : State} {bs rest : List Bool} (h : s.env = bs ++ rest) {k : Nat} (hk : k < bs.length) :
    answer s k = bs[k] := by
  simp [answer, answerAt, h, List.getElem?_append_left hk, List.getElem?_eq_getElem hk]

end Sys2Proof.Machine
end

