-- ==== Sys2Proof/Laws/Bits.lean ====
section
/-! SUPPORT. The bit routines in closed form: what one bit does, what a run of bits does. Every transaction's proof cites
these and unfolds no loop. -/

namespace Sys2Proof.Machine

/-! ### Lists of events -/

@[simp] theorem under_nil (p : Phase) : under p [] = [] := rfl

@[simp] theorem under_cons (p : Phase) (e : Event) (es : List Event) : under p (e :: es) = ⟨p, e⟩ :: under p es := rfl

theorem under_append (p : Phase) (a b : List Event) : under p (a ++ b) = under p a ++ under p b := by
  simp [under]

@[simp] theorem map_event_under (p : Phase) (es : List Event) : (under p es).map TraceEntry.event = es := by
  simp [under, Function.comp_def]

@[simp] theorem modeEvents_same (m : Mode) (L : Line) : modeEvents m L m = [] := by simp [modeEvents]

theorem modeEvents_change {c m : Mode} (L : Line) (h : c ≠ m) : modeEvents c L m = [.mode L m] := by
  simp [modeEvents, h]

theorem setMode_under (L : Line) (m : Mode) (s : State) :
    setMode L m s = { s with
      mode := s.mode.set L m
      trace := s.trace ++ under s.phase (modeEvents (s.mode.get L) L m) } := by
  unfold setMode modeEvents
  split
  · next h => rw [← h, PerLine.set_get_self]; simp
  · rfl

/-! ### One bit -/

theorem pinWrite_out {L : Line} {s : State} (b : Bool) (h : s.mode.get L = .out) :
    pinWrite L b s = .ok (record (.write L b) { s with lat := s.lat.set L b }) := by
  simp [pinWrite, h]

theorem pinWrite_misuse {L : Line} {s : State} (b : Bool) (h : s.mode.get L ≠ .out) :
    pinWrite L b s = .error .pinModeMisuse := by
  simp [pinWrite, h]

theorem pinRead_inp {L : Line} {s : State} (h : s.mode.get L = .inp) :
    pinRead L s = .ok (answer s 0, record (.sample L (answer s 0)) (dropAnswers 1 s)) := by
  simp [pinRead, h]

theorem engOutBit_eq {s : State} (b : Bool) (hc : s.mode.clk = .out) (hd : s.mode.dio = .out) :
    engOutBit b s = .ok { s with
      lat := ⟨true, b, s.lat.rst⟩
      dly := 0
      trace := s.trace ++ under s.phase (engOutEvents s.halfPeriod.toNat b) } := by
  simp [engOutBit, pinWrite, hc, hd, bind, Except.bind, pure, Except.pure, record, delay, PerLine.set, PerLine.get,
    engOutEvents]

theorem swjOutBit_eq {s : State} (b : Bool) (hc : s.mode.clk = .out) (hd : s.mode.dio = .out) :
    swjOutBit b s = .ok { s with
      lat := ⟨true, b, s.lat.rst⟩
      dly := 0
      trace := s.trace ++ under s.phase (swjOutEvents s.halfPeriod.toNat b) } := by
  simp [swjOutBit, pinWrite, hc, hd, bind, Except.bind, pure, Except.pure, record, delay, PerLine.set, PerLine.get,
    swjOutEvents]

theorem engInBit_eq {s : State} (hc : s.mode.clk = .out) (hd : s.mode.dio = .inp) :
    engInBit s = .ok (answer s 0, { s with
      lat := ⟨true, s.lat.dio, s.lat.rst⟩
      dly := 0
      env := s.env.drop 1
      samples := s.samples + 1
      trace := s.trace ++ under s.phase (engInEvents s.halfPeriod.toNat (answer s 0)) }) := by
  simp [engInBit, pinWrite, pinRead, hc, hd, bind, Except.bind, pure, Except.pure, record, delay, PerLine.set,
    PerLine.get, engInEvents, dropAnswers, answer]

/-! ### A run of bits -/

theorem sendLoop_eq (v : Word) : ∀ (k i : Nat) (s : State), s.mode.clk = .out → s.mode.dio = .out →
    s.bitcnt = BitVec.ofNat 6 i → i + k ≤ 32 →
    sendLoop v k s = .ok { s with
      lat := if k = 0 then s.lat else ⟨true, v.getLsbD (i + k - 1), s.lat.rst⟩
      dly := if k = 0 then s.dly else 0
      bitcnt := BitVec.ofNat 6 (i + k)
      trace := s.trace ++ under s.phase
        ((List.range' i k).flatMap fun j => engOutEvents s.halfPeriod.toNat (v.getLsbD j)) } := by
  intro k
  induction k with
  | zero => intro i s hc hd hb _; simp [sendLoop, ← hb]
  | succ k ih =>
    intro i s hc hd hb hk
    have hi : s.bitcnt.toNat = i := by rw [hb]; simp; omega
    simp only [sendLoop, engOutBit_eq _ hc hd, bind, Except.bind]
    refine (ih (i + 1) _ (by exact hc) (by exact hd) (by simp only [hb, BitVec.ofNat_add]; rfl) (by omega)).trans ?_
    simp only [Except.ok.injEq, State.mk.injEq, hi, List.range'_succ, List.flatMap_cons, under_append,
      true_and]
    refine ⟨?_, ?_, ?_, ?_⟩
    · by_cases h0 : k = 0
      · simp [h0]
      · simp [h0]
    · congr 1; omega
    · simp
    · simp

theorem recvLoop_eq (f : Nat → Bool) : ∀ (k i : Nat) (s : State), s.mode.clk = .out → s.mode.dio = .inp →
    s.bitcnt = BitVec.ofNat 6 i → i + k ≤ 32 → (∀ j, answer s j = f (i + j)) →
    recvLoop k (received f i) s = .ok (received f (i + k), { s with
      lat := if k = 0 then s.lat else ⟨true, s.lat.dio, s.lat.rst⟩
      dly := if k = 0 then s.dly else 0
      bitcnt := BitVec.ofNat 6 (i + k)
      env := s.env.drop k
      samples := s.samples + k
      trace := s.trace ++ under s.phase
        ((List.range' i k).flatMap fun j => engInEvents s.halfPeriod.toNat (f j)) }) := by
  intro k
  induction k with
  | zero => intro i s hc hd hb _ _; simp [recvLoop, ← hb]
  | succ k ih =>
    intro i s hc hd hb hk hf
    have hi : s.bitcnt.toNat = i := by rw [hb]; simp; omega
    have h0 : answer s 0 = f i := by simpa using hf 0
    simp only [recvLoop, engInBit_eq hc hd, bind, Except.bind, hi, h0]
    have hv : putBit (received f i) i (f i) = received f (i + 1) := rfl
    rw [hv]
    refine (ih (i + 1) _ (by exact hc) (by exact hd) (by simp only [hb, BitVec.ofNat_add]; rfl) (by omega) ?_).trans ?_
    rotate_left
    · simp only [Except.ok.injEq, Prod.mk.injEq, State.mk.injEq, List.range'_succ, List.flatMap_cons, under_append,
        true_and]
      refine ⟨by congr 1; omega, ?_, ?_, ?_, ?_, ?_, ?_⟩
      · by_cases hk0 : k = 0 <;> simp [hk0]
      · congr 1; omega
      · simp
      · simp
      · omega
      · simp
    · intro j
      rw [show i + 1 + j = i + (1 + j) by omega, ← hf, ← answer_dropAnswers]
      exact congrFun (answer_congr rfl rfl) j

/-- SEND_BITS in closed form (R192). -/
theorem sendBits_eq {n : Nat} (v : Word) {s : State} (hc : s.mode.clk = .out) (hn : n ≤ 32) :
    sendBits n v s = .ok { s with
      mode := s.mode.set .dio .out
      lat := if n = 0 then s.lat else ⟨true, v.getLsbD (n - 1), s.lat.rst⟩
      dly := if n = 0 then s.dly else 0
      bitcnt := BitVec.ofNat 6 n
      trace := s.trace ++ under s.phase (modeEvents s.mode.dio .dio .out ++ sendEvents s.halfPeriod.toNat n v) } := by
  unfold sendBits
  rw [sendLoop_eq v n 0 _ (by simpa using hc) (by simp) rfl (by omega)]
  simp [setMode_under, sendEvents, under_append, List.range_eq_range']

/-- RECV_BITS in closed form (R193). -/
theorem recvBits_eq {n : Nat} {s : State} (hc : s.mode.clk = .out) (hn : n ≤ 32) :
    recvBits n s = .ok (received (answer s) n, { s with
      mode := s.mode.set .dio .inp
      lat := if n = 0 then s.lat else ⟨true, s.lat.dio, s.lat.rst⟩
      dly := if n = 0 then s.dly else 0
      bitcnt := BitVec.ofNat 6 n
      env := s.env.drop n
      samples := s.samples + n
      trace := s.trace ++ under s.phase (modeEvents s.mode.dio .dio .inp ++ recvEvents s.halfPeriod.toNat n (answer s)) }) := by
  unfold recvBits
  have h := recvLoop_eq (answer s) n 0 { setMode .dio .inp s with bitcnt := 0 } (by simpa using hc) (by simp) rfl
    (by omega) (fun j => by simp [answer])
  simp only [received] at h
  rw [h]
  simp [setMode_under, recvEvents, under_append, List.range_eq_range']

/-- A pin of the wrong mode stops SEND_BITS at its first bit (R134). -/
theorem sendBits_misuse {n : Nat} (v : Word) {s : State} (hc : s.mode.clk ≠ .out) (hn : 0 < n) :
    sendBits n v s = .error .pinModeMisuse := by
  obtain ⟨n, rfl⟩ := Nat.exists_eq_succ_of_ne_zero (Nat.pos_iff_ne_zero.mp hn)
  simp [sendBits, sendLoop, engOutBit, pinWrite, record, bind, Except.bind, hc]

/-- A pin of the wrong mode stops RECV_BITS at its first bit (R134). -/
theorem recvBits_misuse {n : Nat} {s : State} (hc : s.mode.clk ≠ .out) (hn : 0 < n) :
    recvBits n s = .error .pinModeMisuse := by
  obtain ⟨n, rfl⟩ := Nat.exists_eq_succ_of_ne_zero (Nat.pos_iff_ne_zero.mp hn)
  simp [recvBits, recvLoop, engInBit, pinWrite, bind, Except.bind, hc]

/-- The bits of a byte sequence in closed form (R173, R174). -/
theorem swjLoop_eq (bytes : List Byte) : ∀ (k i : Nat) (s : State), s.mode.clk = .out → s.mode.dio = .out →
    swjLoop bytes k i s = .ok { s with
      lat := if k = 0 then s.lat else ⟨true, seqBit bytes (i + k - 1), s.lat.rst⟩
      dly := if k = 0 then s.dly else 0
      bitcnt := if k = 0 then s.bitcnt else BitVec.ofNat 6 ((i + k - 1) % 8 + 1)
      trace := s.trace ++ under s.phase
        ((List.range' i k).flatMap fun j => swjOutEvents s.halfPeriod.toNat (seqBit bytes j)) } := by
  intro k
  induction k with
  | zero => intro i s _ _; simp [swjLoop]
  | succ k ih =>
    intro i s hc hd
    simp only [swjLoop, bind, Except.bind]
    rw [swjOutBit_eq (s := { s with bitcnt := BitVec.ofNat 6 (i % 8) }) _ hc hd]
    refine (ih (i + 1) _ (by exact hc) (by exact hd)).trans ?_
    simp only [Except.ok.injEq, State.mk.injEq, List.range'_succ, List.flatMap_cons, under_append,
      true_and]
    refine ⟨?_, ?_, ?_, ?_⟩
    · by_cases h0 : k = 0
      · simp [h0]
      · simp [h0]
    · by_cases h0 : k = 0
      · simp [h0]
      · simp only [h0, if_false, if_neg (Nat.succ_ne_zero k)]; congr 1; omega
    · simp
    · simp

end Sys2Proof.Machine
end

