-- ==== Sys2Proof/Laws/PerInstr.lean ====
section
/-! SUPPORT. The statement made per instruction: which way an operation reaches the block, and in which range of codes
(R91, R92, R114), read off its encoding. -/

namespace Sys2Proof.Laws

open Sys2Proof.Machine

/-- An external operation is offered on the command port under a code below 15; a code that names no operation is there too,
15 or from 23 up; everything else never stands on the command port (R91, R92, R114). -/
def CodeClass.Statement (i : Instr) : Prop :=
  match encode i with
  | .command p => (isExternal i = true ∧ p.op.toNat < 15) ∨
      (namesNoOperation i = true ∧ (p.op.toNat = 15 ∨ 23 ≤ p.op.toNat))
  | .internal (.micro m) => isOffer i = false ∧ 16 ≤ m.op.toNat ∧ m.op.toNat ≤ 22
  | .internal (.request _) | .internal (.ackRead _) | .internal (.ackWrite _) | .internal (.ack _) => isOffer i = false

theorem CodeClass.suspend : CodeClass.Statement .suspend := by
  simp [CodeClass.Statement, encode, isExternal]

theorem CodeClass.timSetClock (hz : Word) : CodeClass.Statement (.timSetClock hz) := by
  simp [CodeClass.Statement, encode, isExternal]

theorem CodeClass.swjDrive (outputLevels mask : Byte) (settleUs : Word) : CodeClass.Statement (.swjDrive outputLevels mask settleUs) := by
  simp [CodeClass.Statement, encode, isExternal]

theorem CodeClass.swjClockSequence (bitCount : Word) (bytes : List Byte) : CodeClass.Statement (.swjClockSequence bitCount bytes) := by
  simp [CodeClass.Statement, encode, isExternal]

theorem CodeClass.swdAcquire : CodeClass.Statement .swdAcquire := by
  simp [CodeClass.Statement, encode, isExternal]

theorem CodeClass.swdRelease : CodeClass.Statement .swdRelease := by
  simp [CodeClass.Statement, encode, isExternal]

theorem CodeClass.swdRead (apndp : Bool) (a : BitVec 2) : CodeClass.Statement (.swdRead apndp a) := by
  simp [CodeClass.Statement, encode, isExternal]

theorem CodeClass.swdWrite (apndp : Bool) (a : BitVec 2) (data : Word) : CodeClass.Statement (.swdWrite apndp a data) := by
  simp [CodeClass.Statement, encode, isExternal]

theorem CodeClass.swdConfigure (trn : BitVec 2) (dph : Bool) : CodeClass.Statement (.swdConfigure trn dph) := by
  simp [CodeClass.Statement, encode, isExternal]

theorem CodeClass.swdSetClock (hz : Word) : CodeClass.Statement (.swdSetClock hz) := by
  simp [CodeClass.Statement, encode, isExternal]

theorem CodeClass.jtagAvailable : CodeClass.Statement .jtagAvailable := by
  simp [CodeClass.Statement, encode, isExternal]

theorem CodeClass.jtagAcquire : CodeClass.Statement .jtagAcquire := by
  simp [CodeClass.Statement, encode, isExternal]

theorem CodeClass.jtagRelease : CodeClass.Statement .jtagRelease := by
  simp [CodeClass.Statement, encode, isExternal]

theorem CodeClass.jtagSequences (bitCount : Word) (bytes : List Byte) : CodeClass.Statement (.jtagSequences bitCount bytes) := by
  simp [CodeClass.Statement, encode, isExternal]

theorem CodeClass.jtagSetClock (hz : Word) : CodeClass.Statement (.jtagSetClock hz) := by
  simp [CodeClass.Statement, encode, isExternal]

theorem CodeClass.reserved01111 : CodeClass.Statement .reserved01111 := .inr ⟨rfl, .inl rfl⟩

theorem CodeClass.pinSetMode (line : Line) (mode : Mode) : CodeClass.Statement (.pinSetMode line mode) := by
  simp [CodeClass.Statement, encode, isOffer, isExternal, namesNoOperation]

theorem CodeClass.pinWrite (line : Line) (level : Bool) : CodeClass.Statement (.pinWrite line level) := by
  simp [CodeClass.Statement, encode, isOffer, isExternal, namesNoOperation]

theorem CodeClass.pinRead (line : Line) : CodeClass.Statement (.pinRead line) := by
  simp [CodeClass.Statement, encode, isOffer, isExternal, namesNoOperation]

theorem CodeClass.timConfigure (cpu max : Word) : CodeClass.Statement (.timConfigure cpu max) := by
  simp [CodeClass.Statement, encode, isOffer, isExternal, namesNoOperation]

theorem CodeClass.timDelay (n : Nat) : CodeClass.Statement (.timDelay n) := by
  simp [CodeClass.Statement, encode, isOffer, isExternal, namesNoOperation]

theorem CodeClass.sendBits (n : Nat) (v : Word) : CodeClass.Statement (.sendBits n v) := by
  simp [CodeClass.Statement, encode, isOffer, isExternal, namesNoOperation]

theorem CodeClass.recvBits (n : Nat) : CodeClass.Statement (.recvBits n) := by
  simp [CodeClass.Statement, encode, isOffer, isExternal, namesNoOperation]

theorem CodeClass.unused10111 : CodeClass.Statement .unused10111 := .inr ⟨rfl, .inr (by decide)⟩

theorem CodeClass.unused11000 : CodeClass.Statement .unused11000 := .inr ⟨rfl, .inr (by decide)⟩

theorem CodeClass.unused11001 : CodeClass.Statement .unused11001 := .inr ⟨rfl, .inr (by decide)⟩

theorem CodeClass.unused11010 : CodeClass.Statement .unused11010 := .inr ⟨rfl, .inr (by decide)⟩

theorem CodeClass.unused11011 : CodeClass.Statement .unused11011 := .inr ⟨rfl, .inr (by decide)⟩

theorem CodeClass.unused11100 : CodeClass.Statement .unused11100 := .inr ⟨rfl, .inr (by decide)⟩

theorem CodeClass.unused11101 : CodeClass.Statement .unused11101 := .inr ⟨rfl, .inr (by decide)⟩

theorem CodeClass.unused11110 : CodeClass.Statement .unused11110 := .inr ⟨rfl, .inr (by decide)⟩

theorem CodeClass.unused11111 : CodeClass.Statement .unused11111 := .inr ⟨rfl, .inr (by decide)⟩

theorem CodeClass.wireRequestRead (apndp : Bool) (a : BitVec 2) : CodeClass.Statement (.wireRequestRead apndp a) := rfl

theorem CodeClass.wireRequestWrite (apndp : Bool) (a : BitVec 2) : CodeClass.Statement (.wireRequestWrite apndp a) := rfl

theorem CodeClass.wireAckphaseRead (v : BitVec 4) : CodeClass.Statement (.wireAckphaseRead v) := rfl

theorem CodeClass.wireAckphaseWrite (v : BitVec 5) : CodeClass.Statement (.wireAckphaseWrite v) := rfl

theorem CodeClass.wireAckOk : CodeClass.Statement .wireAckOk := rfl

theorem CodeClass.wireAckWait : CodeClass.Statement .wireAckWait := rfl

theorem CodeClass.wireAckFault : CodeClass.Statement .wireAckFault := rfl

end Sys2Proof.Laws
end

