-- ==== Sys2Proof/Laws/Run.lean ====
section
/-! SUPPORT. The unfolding of a run, one step at a time. -/

namespace Sys2Proof.Machine

@[simp] theorem collect_zero (s : State) : collect 0 s = .next ⟨[], s⟩ := rfl

/-- A step that answers a next state puts its response before those of the rest of the run. -/
theorem collect_succ {k : Nat} {s t : State} {q : RunResult} (h : step s = .next t) (hq : collect k t = .next q) :
    collect (k + 1) s = .next { q with responses := t.rsp :: q.responses } := by
  simp only [collect, h, hq]

/-- A step that faults gives the run no result. -/
theorem collect_fault {s : State} {f : Fault} (k : Nat) (h : step s = .fault f) : collect (k + 1) s = .fault f := by
  simp only [collect, h]

@[simp] theorem launch_offers (r : RunInput) (s : State) : (launch r s).offers = r.ops := rfl
@[simp] theorem launch_env (r : RunInput) (s : State) : (launch r s).env = r.answers := rfl
@[simp] theorem launch_useq (r : RunInput) (s : State) : (launch r s).useq = s.useq := rfl
@[simp] theorem launch_busy (r : RunInput) (s : State) : (launch r s).busy = s.busy := rfl
@[simp] theorem launch_phase (r : RunInput) (s : State) : (launch r s).phase = s.phase := rfl
@[simp] theorem launch_owner (r : RunInput) (s : State) : (launch r s).owner = s.owner := rfl
@[simp] theorem launch_mode (r : RunInput) (s : State) : (launch r s).mode = s.mode := rfl
@[simp] theorem launch_trace (r : RunInput) (s : State) : (launch r s).trace = s.trace := rfl

end Sys2Proof.Machine
end

