-- ==== Sys2Proof/Laws/Transactions.lean ====
section
/-! SUPPORT. Each piece of a transaction, and each shared operation, in closed form: what it does when it answers, said once. -/

namespace Sys2Proof.Machine

/-- The park bit is 1 (R94): the last bit of every request leaves the data line high. -/
theorem makeRequest_park (apndp rnw : Bool) (a : BitVec 2) :
    ((makeRequest apndp rnw a).setWidth 32).getLsbD 7 = true := by
  revert apndp rnw a; decide

theorem PerLine.eta {α : Type} (p : PerLine α) : (⟨p.clk, p.dio, p.rst⟩ : PerLine α) = p := rfl

/-- The opening of a transaction (R94, R201, R204). -/
theorem openRequest_eq (apndp rnw : Bool) (a : BitVec 2) (s : State) :
    openRequest apndp rnw a s = .ok { s with
      mode := ⟨.out, .out, s.mode.rst⟩
      lat := ⟨true, true, s.lat.rst⟩
      dly := 0
      bitcnt := 8
      req := makeRequest apndp rnw a
      phase := .requestSent
      trace := s.trace ++ under s.phase (modeEvents s.mode.clk .clk .out) ++
        under .requestSent (modeEvents s.mode.dio .dio .out ++
          sendEvents s.halfPeriod.toNat 8 ((makeRequest apndp rnw a).setWidth 32)) } := by
  unfold openRequest
  simp only
  rw [sendBits_eq _ (by simp) (by omega)]
  have hp := makeRequest_park apndp rnw a
  simp only [Nat.reduceSub, hp]
  simp only [setMode_under]
  simp [PerLine.set]

/-- An ACK phase (R98, R100). -/
theorem ackPhase_eq {n : Nat} {s : State} (hc : s.mode.clk = .out) (h0 : 0 < n) (hn : n ≤ 32) :
    ackPhase n s = .ok { s with
      mode := s.mode.set .dio .inp
      lat := ⟨true, s.lat.dio, s.lat.rst⟩
      dly := 0
      bitcnt := BitVec.ofNat 6 n
      ack := ackOf (received (answer s) n)
      shreg := received (answer s) n
      phase := .ackPhase
      env := s.env.drop n
      samples := s.samples + n
      trace := s.trace ++ under .ackPhase (modeEvents s.mode.dio .dio .inp ++
        recvEvents s.halfPeriod.toNat n (answer s)) } := by
  have hf : answer { s with phase := .ackPhase } = answer s := answer_congr rfl rfl
  simp [ackPhase, recvBits_eq (s := { s with phase := .ackPhase }) hc hn, bind, Except.bind, pure, Except.pure,
    Nat.pos_iff_ne_zero.mp h0, hf]

/-- The error flush and the error response (R202, R274). -/
theorem ackError_eq {s : State} (hc : s.mode.clk = .out) :
    ackError s = .ok { s with
      mode := s.mode.set .dio .inp
      lat := ⟨true, false, s.lat.rst⟩
      dly := 0
      bitcnt := 4
      phase := .idle
      rsp := ⟨ackErrorStatus s.ack, 0, true⟩
      busy := false
      trace := s.trace ++ under .errorFlush (modeEvents s.mode.dio .dio .out ++ sendEvents s.halfPeriod.toNat 4 0 ++
        [.mode .dio .inp]) } := by
  simp only [ackError, flush, flushBits, bind, Except.bind, pure, Except.pure]
  rw [sendBits_eq (n := 4) (s := { s with phase := .errorFlush }) 0 hc (by omega)]
  simp [setMode_under, respond, PerLine.set, under_append, modeEvents_change]

/-- The data phase of a read (R102, R201): the parity bit is the 33rd answer. -/
theorem receiveData_eq {s : State} (hc : s.mode.clk = .out) :
    receiveData s = .ok { s with
      mode := s.mode.set .dio .inp
      lat := ⟨true, s.lat.dio, s.lat.rst⟩
      dly := 0
      bitcnt := 1
      shreg := received (answer s) 32
      par := answer s 32
      phase := .dataPhase
      env := s.env.drop 33
      samples := s.samples + 33
      trace := s.trace ++ under .dataPhase (modeEvents s.mode.dio .dio .inp ++
        recvEvents s.halfPeriod.toNat 33 (answer s)) } := by
  have hf : answer { s with phase := .dataPhase } = answer s := answer_congr rfl rfl
  simp only [receiveData, recvBits_eq (n := 32) (s := { s with phase := .dataPhase }) hc (by omega), bind, Except.bind,
    pure, Except.pure]
  rw [recvBits_eq (n := 1) (by exact hc) (by omega)]
  have h32 : ∀ t : State, t.env = s.env.drop 32 → t.samples = s.samples + 32 → answer t 0 = answer s 32 := by
    intro t h1 h2
    rw [show (32 : Nat) = 32 + 0 from rfl, ← answer_dropAnswers 32 0 s]
    exact congrFun (answer_congr h1 h2) 0
  have hp : ∀ b, (putBit 0 0 b).getLsbD 0 = b := by decide
  have h1 : ∀ f, (received f 1).getLsbD 0 = f 0 := fun f => hp (f 0)
  have he : ∀ (h : Nat) (f : Nat → Bool), recvEvents h 1 f = engInEvents h (f 0) := fun _ _ => by simp [recvEvents]
  have hr : ∀ h : Nat, recvEvents h 33 (answer s) =
      recvEvents h 32 (answer s) ++ engInEvents h (answer s 32) := by
    intro h; simp [recvEvents, List.range_succ]
  simp only [Except.ok.injEq, State.mk.injEq, h1, he, hr, hf]
  rw [h32 _ rfl rfl]
  simp [PerLine.set, under_append]

/-- The data phase of a write (R102, R204). -/
theorem sendData_eq {s : State} (data : Word) (hc : s.mode.clk = .out) :
    sendData data s = .ok { s with
      mode := s.mode.set .dio .out
      lat := ⟨true, parity32 data, s.lat.rst⟩
      dly := 0
      bitcnt := 1
      shreg := data
      par := parity32 data
      phase := .dataSend
      trace := s.trace ++ under .dataSend (modeEvents s.mode.dio .dio .out ++ sendEvents s.halfPeriod.toNat 32 data ++
        engOutEvents s.halfPeriod.toNat (parity32 data)) } := by
  simp only [sendData, bind, Except.bind]
  rw [sendBits_eq (n := 32) _ (by exact hc) (by omega)]
  simp only
  rw [sendBits_eq (n := 1) _ (by exact hc) (by omega)]
  have hp : ((BitVec.ofBool (parity32 data)).setWidth 32).getLsbD 0 = parity32 data := by
    cases parity32 data <;> rfl
  simp [PerLine.set, under_append, sendEvents]

/-- The trailing bits (R105). -/
theorem trailing_eq {s : State} (hc : s.mode.clk = .out) :
    trailing s = .ok { s with
      mode := s.mode.set .dio .out
      lat := ⟨true, false, s.lat.rst⟩
      dly := 0
      bitcnt := 8
      phase := .trailingIdle
      trace := s.trace ++ under .trailingIdle (modeEvents s.mode.dio .dio .out ++ sendEvents s.halfPeriod.toNat 8 0) } := by
  simp only [trailing, trailBits]
  rw [sendBits_eq (n := 8) (s := { s with phase := .trailingIdle }) 0 hc (by omega)]
  simp

/-- The end of a read (R201, R203). -/
theorem finishRead_eq {s : State} (hd : s.mode.dio = .out) :
    finishRead s = .ok { s with
      lat := s.lat.set .dio false
      phase := .idle
      rsp := if s.par = parity32 s.shreg then ⟨.ok, s.shreg, true⟩ else ⟨.badParity, 0, true⟩
      busy := false
      trace := s.trace ++ under s.phase [.write .dio false] } := by
  simp only [finishRead, pinWrite_out (L := .dio) false hd, bind, Except.bind, pure, Except.pure, record_par,
    record_shreg]
  by_cases h : s.par = parity32 s.shreg <;> simp [h, respond, record]

/-! ### SWJ.DRIVE -/

/-- What SWJ.DRIVE does to a push-pull line (R171). -/
theorem drivePushPull_eq (L : Line) (selected level : Bool) (s : State) :
    drivePushPull L selected level s = .ok { s with
      mode := s.mode.set L (modeWhileDriven selected .out (s.mode.get L))
      lat := s.lat.set L (if selected then level else s.lat.get L)
      trace := s.trace ++ under s.phase (pushPullEvents (s.mode.get L) L selected level) } := by
  unfold drivePushPull modeWhileDriven pushPullEvents
  split
  · rw [pinWrite_out _ (by simp [setMode_mode])]
    simp [setMode_under, record, under_append]
  · simp [PerLine.set_get_self]

/-- What SWJ.DRIVE does to the open-drain reset line (R172). -/
theorem driveReset_eq (selected level : Bool) (s : State) :
    driveReset selected level s = .ok { s with
      mode := s.mode.set .rst (resetWhileDriven selected level s.mode.rst)
      lat := s.lat.set .rst (if selected && !level then false else s.lat.rst)
      trace := s.trace ++ under s.phase (openDrainEvents s.mode.rst selected level) } := by
  unfold driveReset resetWhileDriven modeWhileDriven openDrainEvents
  split
  · split
    · next h1 h2 => simp [setMode_under, h2, PerLine.set]
    · next h1 h2 =>
      rw [pinWrite_out _ (by simp [setMode_mode])]
      simp [setMode_under, record, h1, h2, under_append]
  · next h1 => simp [h1, PerLine.set]

/-! ### Owner, clock, bus -/

theorem ownedBy_holder {o : Owner} {s : State} (h : s.owner = o) (body : Except Fault State) :
    ownedBy o s body = body := by simp [ownedBy, h]

theorem ownedBy_other {o : Owner} {s : State} (h : s.owner ≠ o) (body : Except Fault State) :
    ownedBy o s body = .ok (refuse s) := by simp [ownedBy, h]

theorem floatBus_mode (s : State) : (floatBus s).mode = ⟨.inp, .inp, s.mode.rst⟩ := by
  simp [floatBus, setMode_mode, PerLine.set]

theorem driveBus_mode (s : State) : (driveBus s).mode = ⟨.out, .out, s.mode.rst⟩ := by
  simp [driveBus, setMode_mode, PerLine.set]

/-- Floating the bus changes line modes and records the changes; nothing else. -/
theorem floatBus_eq (s : State) :
    floatBus s = { s with
      mode := ⟨.inp, .inp, s.mode.rst⟩
      trace := s.trace ++ under s.phase (modeEvents s.mode.clk .clk .inp ++ modeEvents s.mode.dio .dio .inp) } := by
  simp [floatBus, setMode_under, PerLine.set, under_append, PerLine.get]

/-- Driving the bus changes line modes and records the changes; nothing else. -/
theorem driveBus_eq (s : State) :
    driveBus s = { s with
      mode := ⟨.out, .out, s.mode.rst⟩
      trace := s.trace ++ under s.phase (modeEvents s.mode.clk .clk .out ++ modeEvents s.mode.dio .dio .out) } := by
  simp [driveBus, setMode_under, PerLine.set, under_append, PerLine.get]

/-- A clock request answers one of two next states, or stops at 0 Hz (R153, R156). -/
theorem setClock_cases (hz : Word) (s : State) :
    (s.cpuFreq ≤ hz ∧ setClock hz s = .ok (respond .clockRejected 0 s)) ∨
    (hz < s.cpuFreq ∧ hz = 0 ∧ setClock hz s = .error .divideByZero) ∨
    (hz < s.cpuFreq ∧ hz ≠ 0 ∧ setClock hz s =
      .ok (respond .ok 0 { s with maxFreq := hz, halfPeriod := halfPeriodOf s.cpuFreq hz })) := by
  unfold setClock
  by_cases h : s.cpuFreq ≤ hz
  · exact .inl ⟨h, by simp [h]⟩
  · have hlt : hz < s.cpuFreq := BitVec.not_le.mp h
    by_cases h0 : hz = 0
    · exact .inr (.inl ⟨hlt, h0, by rw [if_neg h, if_pos h0]⟩)
    · exact .inr (.inr ⟨hlt, h0, by rw [if_neg h, if_neg h0]⟩)

@[simp] theorem toOutcome_ok (s : State) : toOutcome (.ok s) = .next s := rfl

@[simp] theorem toOutcome_error (f : Fault) : toOutcome (.error f) = .fault f := rfl

theorem toOutcome_next {x : Except Fault State} {t : State} (h : toOutcome x = .next t) : x = .ok t := by
  cases x with
  | ok s => simpa [toOutcome] using h
  | error f => simp [toOutcome] at h

end Sys2Proof.Machine
end

