-- ==== Sys2Proof/Tests/Slice0.lean ====
section
/-! SUPPORT. The model's own tests. Every expected result is taken from the spec: the encodings of 30_encoding.md, and the
vectors of 95_test_vectors.md under the number its comment names. Then, for every statement that has hypotheses, a theorem
`witness_<statement>` that shows concrete operands and states meeting them together, at the edges of their ranges. -/

set_option maxRecDepth 20000

namespace Sys2Proof.Tests

open Sys2Proof.Machine

/-! ### Helpers -/

/-- Bits written as digits, the first on the wire leftmost. -/
def bits (ds : List Nat) : List Bool := ds.map (fun d => decide (d = 1))

/-- The block of the vectors: 125 MHz, 1 MHz, all latches 0; the environment answers `env`. -/
def fresh (env : List Bool) : State := { State.resetWith 125000000 1000000 ⟨false, false, false⟩ with env := env }

/-- The same after SWD.ACQUIRE. -/
def owned (env : List Bool) : State := { fresh env with owner := .swd, mode := ⟨.out, .out, .inp⟩ }

/-- The same after JTAG.ACQUIRE. -/
def jtagOwned : State := { fresh [] with owner := .jtag }

/-- The state an outcome leads to, if it leads to one. -/
def nextOf (o : Host.Outcome State Fault Refusal) : Option State :=
  match o with
  | .next s => some s
  | .fault _ => none
  | .refused _ => none

/-- The fault an outcome is, if it is one. -/
def faultOf (o : Host.Outcome State Fault Refusal) : Option Fault :=
  match o with
  | .fault f => some f
  | .next _ => none
  | .refused _ => none

/-- What the outcome shows of its state through `view`. -/
def shows {α : Type} (view : State → α) (o : Host.Outcome State Fault Refusal) : Option α := (nextOf o).map view

/-- The events of the trace. -/
def events (s : State) : List Event := s.trace.map TraceEntry.event

/-- `out[...]` of the vectors on the engine path, at the half-period 62 (R190). -/
def out (ds : List Nat) : List Event :=
  (bits ds).flatMap fun b => [.write .dio b, .write .clk false, .delay 62, .write .clk true, .delay 62]

/-- `in[...]` of the vectors, at the half-period 62 (R191). -/
def inn (ds : List Nat) : List Event :=
  (bits ds).flatMap fun b => [.write .clk false, .delay 62, .sample .dio b, .write .clk true, .delay 62]

theorem exists_next_of_isSome {o : Host.Outcome State Fault Refusal} (h : (nextOf o).isSome = true) : ∃ t, o = .next t := by
  cases o with
  | next t => exact ⟨t, rfl⟩
  | fault f => simp [nextOf] at h
  | refused r => simp [nextOf] at h

/-! ### WellFormed refuses what is out of range -/

/-- R157: the delay counter has 64 bits. -/
theorem test_wellFormed_delay_too_long : ¬ WellFormed (.timDelay (2 ^ 64)) := by decide

/-- R192: at most 32 bits are sent. -/
theorem test_wellFormed_send_33_bits : ¬ WellFormed (.sendBits 33 0) := by decide

/-- R192: the value sent has no bit above its count. -/
theorem test_wellFormed_send_wide_value : ¬ WellFormed (.sendBits 8 0x100) := by decide

/-- R193: at most 32 bits are received. -/
theorem test_wellFormed_recv_33_bits : ¬ WellFormed (.recvBits 33) := by decide

/-! ### Decoding, each word written out from the spec's encoding -/

/-- R91, R92: the external operations. -/
theorem test_decode_external :
    decode (.command { op := 0b00000 }) = .ok .suspend ∧
    decode (.command { op := 0b00001, word := 100000 }) = .ok (.timSetClock 100000) ∧
    decode (.command { op := 0b00010, out := 0x80, mask := 0x81, word := 1000 }) = .ok (.swjDrive 0x80 0x81 1000) ∧
    decode (.command { op := 0b00011, bitCount := 16, bytes := [0x9E, 0xE7] }) =
      .ok (.swjClockSequence 16 [0x9E, 0xE7]) ∧
    decode (.command { op := 0b00100 }) = .ok .swdAcquire ∧
    decode (.command { op := 0b00101 }) = .ok .swdRelease ∧
    decode (.command { op := 0b00110, apndp := true, a := 0b10 }) = .ok (.swdRead true 0b10) ∧
    decode (.command { op := 0b00111, apndp := false, a := 0b01, word := 0x23000052 }) =
      .ok (.swdWrite false 0b01 0x23000052) := by
  decide

/-- R91, R92: the external operations, continued. -/
theorem test_decode_external_rest :
    decode (.command { op := 0b01000, trn := 0b11, dph := true }) = .ok (.swdConfigure 0b11 true) ∧
    decode (.command { op := 0b01001, word := 200000000 }) = .ok (.swdSetClock 200000000) ∧
    decode (.command { op := 0b01010 }) = .ok .jtagAvailable ∧
    decode (.command { op := 0b01011 }) = .ok .jtagAcquire ∧
    decode (.command { op := 0b01100 }) = .ok .jtagRelease ∧
    decode (.command { op := 0b01101, bitCount := 8, bytes := [0xFF] }) = .ok (.jtagSequences 8 [0xFF]) ∧
    decode (.command { op := 0b01110, word := 10000000 }) = .ok (.jtagSetClock 10000000) := by
  decide

/-- R92, R114 (a): the codes that name no operation. -/
theorem test_decode_reserved :
    decode (.command { op := 0b01111 }) = .ok .reserved01111 ∧
    decode (.command { op := 0b10111 }) = .ok .unused10111 ∧
    decode (.command { op := 0b11000 }) = .ok .unused11000 ∧
    decode (.command { op := 0b11001 }) = .ok .unused11001 ∧
    decode (.command { op := 0b11010 }) = .ok .unused11010 ∧
    decode (.command { op := 0b11011 }) = .ok .unused11011 ∧
    decode (.command { op := 0b11100 }) = .ok .unused11100 ∧
    decode (.command { op := 0b11101 }) = .ok .unused11101 ∧
    decode (.command { op := 0b11110 }) = .ok .unused11110 ∧
    decode (.command { op := 0b11111 }) = .ok .unused11111 := by
  decide

/-- R91, R92, R22: the micro-operations. -/
theorem test_decode_micro :
    decode (.internal (.micro { op := 0b10000, line := 2, mode := 0b00 })) = .ok (.pinSetMode .rst .dis) ∧
    decode (.internal (.micro { op := 0b10001, line := 0, level := true })) = .ok (.pinWrite .clk true) ∧
    decode (.internal (.micro { op := 0b10010, line := 1 })) = .ok (.pinRead .dio) ∧
    decode (.internal (.micro { op := 0b10011, cpu := 48000000, max := 1000000 })) =
      .ok (.timConfigure 48000000 1000000) ∧
    decode (.internal (.micro { op := 0b10100, count := 625 })) = .ok (.timDelay 625) ∧
    decode (.internal (.micro { op := 0b10101, count := 8, value := 0xA5 })) = .ok (.sendBits 8 0xA5) ∧
    decode (.internal (.micro { op := 0b10110, count := 32 })) = .ok (.recvBits 32) := by
  decide

/-- R94, R96, R98, R101: the wire frames; Q0 and Q13 of the request table. -/
theorem test_decode_wire :
    decode (.internal (.request 0b10100101)) = .ok (.wireRequestRead false 0b00) ∧
    decode (.internal (.request 0b10001011)) = .ok (.wireRequestWrite true 0b01) ∧
    decode (.internal (.ackRead 0b0010)) = .ok (.wireAckphaseRead 0b0010) ∧
    decode (.internal (.ackWrite 0b10010)) = .ok (.wireAckphaseWrite 0b10010) ∧
    decode (.internal (.ack 0b001)) = .ok .wireAckOk ∧
    decode (.internal (.ack 0b010)) = .ok .wireAckWait ∧
    decode (.internal (.ack 0b100)) = .ok .wireAckFault := by
  decide

/-- R114 (b), R22, R192, R193, R94, R95, R101: what encodes nothing is rejected by name. -/
theorem test_decode_rejects :
    decode (.command { op := 0b10000 }) = .error .internalOnCommandPort ∧
    decode (.internal (.micro { op := 0b00110 })) = .error .notMicroOperation ∧
    decode (.internal (.micro { op := 0b10001, line := 3 })) = .error .lineCode ∧
    decode (.internal (.micro { op := 0b10000, mode := 0b11 })) = .error .modeCode ∧
    decode (.internal (.micro { op := 0b10110, count := 33 })) = .error .bitCountRange ∧
    decode (.internal (.request 0b10100100)) = .error .requestShape ∧
    decode (.internal (.request 0b10000101)) = .error .requestParity ∧
    decode (.internal (.ack 0b111)) = .error (.ackNoResponse 0b111) := by
  decide

/-- R192: SEND_BITS has an operand of as many bits as its count; bit 4 of the port is none of 4. -/
theorem test_decode_sendBits_low_bits :
    decode (.internal (.micro { op := 0b10101, count := 4, value := 0b10101 })) = .ok (.sendBits 4 0b0101) := by
  decide

/-- The numbering of the opcode table: an operation code, a request byte, a 3-bit ACK code. -/
theorem test_decode_table_words :
    decodeTableWord 8 0x00 = some .suspend ∧ decodeTableWord 8 0x10 = some (.pinSetMode .clk .dis) ∧
    decodeTableWord 8 0x1F = some .unused11111 ∧ decodeTableWord 8 0xA5 = some (.wireRequestRead false 0) ∧
    decodeTableWord 8 0x81 = some (.wireRequestWrite false 0) ∧ decodeTableWord 3 0x4 = some .wireAckFault := by
  decide

/-! ### The request table Q0 to Q15, parity, ACK codes -/

/-- Q0 to Q15: all sixteen request bytes. -/
theorem test_request_bytes :
    makeRequest false true 0 = 0xA5 ∧
    makeRequest false true 1 = 0x8D ∧
    makeRequest false true 2 = 0x95 ∧
    makeRequest false true 3 = 0xBD ∧
    makeRequest true true 0 = 0x87 ∧
    makeRequest true true 1 = 0xAF ∧
    makeRequest true true 2 = 0xB7 ∧
    makeRequest true true 3 = 0x9F ∧
    makeRequest false false 0 = 0x81 ∧
    makeRequest false false 1 = 0xA9 ∧
    makeRequest false false 2 = 0xB1 ∧
    makeRequest false false 3 = 0x99 ∧
    makeRequest true false 0 = 0xA3 ∧
    makeRequest true false 1 = 0x8B ∧
    makeRequest true false 2 = 0x93 ∧
    makeRequest true false 3 = 0xBB := by
  decide

/-- The parity table of 95_test_vectors.md (R104). -/
theorem test_parity_table :
    parity32 0x00000000 = false ∧ parity32 0x00000001 = true ∧ parity32 0x00000003 = false ∧
    parity32 0x00000100 = true ∧ parity32 0x80000000 = true ∧ parity32 0x7FFFFFFF = true ∧
    parity32 0xFFFFFFFF = false ∧ parity32 0xA5A5A5A5 = false ∧ parity32 0x12345678 = true ∧
    parity32 0x23000052 = false ∧ parity32 0x0BC11477 = false ∧ parity32 0xDEADBEEF = false ∧
    parity32 0xDEADBEEE = true := by
  decide

/-- The ACK table: the turnaround sample is dropped, and so is the fifth bit of a write (R100, R101). -/
theorem test_ack_table :
    ackOf 0b0011 = 0b001 ∧ ackOf 0b0100 = 0b010 ∧ ackOf 0b1001 = 0b100 ∧ ackOf 0b10010 = 0b001 ∧
    ackErrorStatus (ackOf 0b0101) = .ackWait ∧ ackErrorStatus (ackOf 0b11000) = .ackFault ∧
    ackErrorStatus (ackOf 0b0000) = .ackNoResponse ∧ ackErrorStatus (ackOf 0b1111) = .ackNoResponse := by
  decide

/-! ### Pin Controller -/

/-- V10, V16: the mode changes, the event is recorded, the latch is kept. -/
theorem test_pinSetMode_keeps_the_latch :
    shows (fun s => (s.mode.dio, s.lat.dio, events s))
      (exec (.pinSetMode .dio .inp) { owned [] with lat := ⟨false, true, false⟩ }) =
    some (.inp, true, [.mode .dio .inp]) := by
  decide

/-- V11: no change of mode, no event. -/
theorem test_pinSetMode_without_change :
    shows events (exec (.pinSetMode .dio .inp) (fresh [])) = some [] := by
  decide

/-- V12: a write is recorded although the latch already holds the level. -/
theorem test_pinWrite_is_recorded :
    shows (fun s => (s.lat.clk, events s)) (exec (.pinWrite .clk true) { owned [] with lat := ⟨true, false, false⟩ }) =
    some (true, [.write .clk true]) := by
  decide

/-- V17: a write on a line in IN mode is mode misuse. -/
theorem test_pinWrite_misuse : faultOf (exec (.pinWrite .dio true) (fresh [])) = some .pinModeMisuse := by decide

/-- V15: the sample is the environment's next answer. -/
theorem test_pinRead_takes_the_next_answer :
    shows (fun s => (s.env, events s)) (exec (.pinRead .dio) (fresh [true, false])) =
    some ([false], [.sample .dio true]) := by
  decide

/-! ### Timing Controller -/

/-- V29d: 133 MHz and 2 MHz give 133 cycles and a half-period of 33. -/
theorem test_timConfigure_truncates :
    shows (fun s => (s.cyclesPerUs, s.halfPeriod)) (exec (.timConfigure 133000000 2000000) (fresh [])) =
    some (133, 33) := by
  decide

/-- V29e: below 1 MHz a microsecond is 0 cycles. -/
theorem test_timConfigure_slow_processor :
    shows (fun s => (s.cyclesPerUs, s.halfPeriod)) (exec (.timConfigure 999999 100000) (fresh [])) = some (0, 4) := by
  decide

/-- R152: `Delay(625)` records `D(625)`. -/
theorem test_timDelay_records : shows events (exec (.timDelay 625) (fresh [])) = some [.delay 625] := by decide

/-- V21 and V27b: the half-period of an accepted request, down to 0. -/
theorem test_timSetClock_accepts :
    shows (fun s => (s.halfPeriod, s.maxFreq, s.rsp.status)) (exec (.timSetClock 100000) (fresh [])) =
      some (625, 100000, .ok) ∧
    shows (fun s => (s.halfPeriod, s.maxFreq, s.rsp.status)) (exec (.timSetClock 62500001) (fresh [])) =
      some (0, 62500001, .ok) := by
  decide

/-- V28b and V29: equality is rejected with nothing changed; 0 Hz is the fault. -/
theorem test_timSetClock_rejects :
    shows (fun s => (s.halfPeriod, s.maxFreq, s.rsp.status)) (exec (.timSetClock 125000000) (fresh [])) =
      some (62, 1000000, .clockRejected) ∧
    faultOf (exec (.timSetClock 0) (fresh [])) = some .divideByZero := by
  decide

/-! ### Line-Level Transport -/

/-- V80: the reset pulse. -/
theorem test_swjDrive_reset_pulse :
    shows (fun s => (events s, s.rsp.data, s.lat.rst)) (exec (.swjDrive 0x00 0x80 1000) (fresh (bits [1, 1, 0]))) =
    some ([.mode .rst .out, .write .rst false, .delay 125000, .mode .rst .inp, .sample .clk true, .sample .dio true,
      .sample .rst false], 0x03, false) := by
  decide

/-- V82: all three lines; reset high is DIS with no write, and what is sampled is what the environment answers. -/
theorem test_swjDrive_all_high :
    shows (fun s => (events s, s.rsp.data, s.lat)) (exec (.swjDrive 0x83 0x83 0) (fresh (bits [0, 1, 1]))) =
    some ([.mode .clk .out, .write .clk true, .mode .dio .out, .write .dio true, .mode .rst .dis, .delay 0,
      .mode .clk .inp, .mode .dio .inp, .mode .rst .inp, .sample .clk false, .sample .dio true, .sample .rst true],
      0x82, ⟨true, true, false⟩) := by
  decide

/-- V91: three bits, in the order of the SWJ path: clock low, then data. -/
theorem test_swjClockSequence_three_bits :
    shows events (exec (.swjClockSequence 3 [0x05]) (fresh [])) =
    some [.mode .clk .out, .mode .dio .out,
      .write .clk false, .write .dio true, .delay 62, .write .clk true, .delay 62,
      .write .clk false, .write .dio false, .delay 62, .write .clk true, .delay 62,
      .write .clk false, .write .dio true, .delay 62, .write .clk true, .delay 62,
      .mode .clk .inp, .mode .dio .inp] := by
  decide

/-- V92: the count is clamped to the bytes there are, and the last bit stays in the latch. -/
theorem test_swjClockSequence_clamped :
    shows (fun s => (clockCount (events s), s.lat.dio, s.mode.clk)) (exec (.swjClockSequence 100 [0xFF, 0x01]) (fresh [])) =
    some (16, false, .inp) := by
  decide

/-! ### Bit micro-operations -/

/-- R192: 4 bits of 0b0101, the least significant first. -/
theorem test_sendBits_lsb_first :
    shows (fun s => (events s, s.mode.dio)) (exec (.sendBits 4 0b0101) (owned [])) =
    some (out [1, 0, 1, 0], .out) := by
  decide

/-- R193: 4 bits 0, 1, 0, 0 are the value 0b0010. -/
theorem test_recvBits_lsb_first :
    shows (fun s => (events s, s.shreg, s.mode.dio)) (exec (.recvBits 4) (owned (bits [0, 1, 0, 0]))) =
    some (.mode .dio .inp :: inn [0, 1, 0, 0], 0b0010, .inp) := by
  decide

/-! ### SWD engine -/

/-- V70: acquiring a free bus drives both lines; a bus that is held refuses. -/
theorem test_swdAcquire :
    shows (fun s => (s.owner, events s)) (exec .swdAcquire (fresh [])) =
      some (.swd, [.mode .clk .out, .mode .dio .out]) ∧
    shows (fun s => (s.owner, events s, s.rsp.status)) (exec .swdAcquire jtagOwned) = some (.jtag, [], .refused) := by
  decide

/-- V70: the release floats both lines; who does not hold the bus is refused. -/
theorem test_swdRelease :
    shows (fun s => (s.owner, events s)) (exec .swdRelease (owned [])) =
      some (.free, [.mode .clk .inp, .mode .dio .inp]) ∧
    shows (fun s => (s.owner, s.rsp.status)) (exec .swdRelease jtagOwned) = some (.jtag, .refused) := by
  decide

/-- V1, V42: the end-to-end read of 0xDEADBEEF. -/
theorem test_swdRead_deadbeef :
    shows (fun s => (s.rsp, s.ack, s.par, s.mode.dio, events s))
      (exec (.swdRead false 0) (owned (bits [0, 1, 0, 0, 1, 1, 1, 1, 0, 1, 1, 1, 0, 1, 1, 1, 1, 1, 0, 1, 1, 0, 1, 1, 0, 1, 0, 1, 0, 1, 1, 1, 1, 0, 1, 1] ++ [false]))) =
    some (⟨.ok, 0xDEADBEEF, true⟩, 0b001, false, .out,
      out [1, 0, 1, 0, 0, 1, 0, 1] ++ [.mode .dio .inp] ++ inn ([0, 1, 0, 0, 1, 1, 1, 1, 0, 1, 1, 1, 0, 1, 1, 1, 1, 1, 0, 1, 1, 0, 1, 1, 0, 1, 0, 1, 0, 1, 1, 1, 1, 0, 1, 1] ++ [0]) ++ [.mode .dio .out] ++
        out [0, 0, 0, 0, 0, 0, 0, 0] ++ [.write .dio false]) := by
  decide

/-- V30: a read answered WAIT: 16 clock cycles, the flush, no data. -/
theorem test_swdRead_wait :
    shows (fun s => (s.rsp, s.mode.dio, events s)) (exec (.swdRead false 1) (owned (bits [0, 0, 1, 0]))) =
    some (⟨.ackWait, 0, true⟩, .inp,
      out [1, 0, 1, 1, 0, 0, 0, 1] ++ [.mode .dio .inp] ++ inn [0, 0, 1, 0] ++ [.mode .dio .out] ++ out [0, 0, 0, 0] ++
        [.mode .dio .inp]) := by
  decide

/-- V50: a write, its data LSB first, its parity and the 8 trailing bits. -/
theorem test_swdWrite_ok :
    shows (fun s => (s.rsp.status, s.par, events s))
      (exec (.swdWrite true 1 0x23000052) (owned (bits [0, 1, 0, 0, 1]))) =
    some (.ok, false,
      out [1, 1, 0, 1, 0, 0, 0, 1] ++ [.mode .dio .inp] ++ inn [0, 1, 0, 0, 1] ++ [.mode .dio .out] ++
        out [0, 1, 0, 0, 1, 0, 1, 0, 0, 0, 0, 0, 0, 0, 0, 0, 0, 0, 0, 0, 0, 0, 0, 0, 1, 1, 0, 0, 0, 1, 0, 0, 0, 0, 0, 0, 0, 0, 0, 0, 0]) := by
  decide

/-- V53: a write answered FAULT: no data bit is sent, the second turnaround sample is ignored. -/
theorem test_swdWrite_fault :
    shows (fun s => (s.rsp.status, events s)) (exec (.swdWrite true 3 0x12345678) (owned (bits [0, 0, 0, 1, 1]))) =
    some (.ackFault,
      out [1, 1, 0, 1, 1, 1, 0, 1] ++ [.mode .dio .inp] ++ inn [0, 0, 0, 1, 1] ++ [.mode .dio .out] ++ out [0, 0, 0, 0] ++
        [.mode .dio .inp]) := by
  decide

/-- V60: the one configuration there is, and its neighbours. -/
theorem test_swdConfigure :
    shows (fun s => s.rsp.status) (exec (.swdConfigure 0 false) (owned [])) = some .ok ∧
    shows (fun s => s.rsp.status) (exec (.swdConfigure 0 true) (owned [])) = some .unsupportedConfiguration ∧
    shows (fun s => s.rsp.status) (exec (.swdConfigure 1 false) (owned [])) = some .unsupportedConfiguration := by
  decide

/-- P3, steps 5 and 6: a clock request through the engine. -/
theorem test_swdSetClock :
    shows (fun s => (s.rsp.status, s.halfPeriod)) (exec (.swdSetClock 200000000) (owned [])) =
      some (.clockRejected, 62) ∧
    shows (fun s => (s.rsp.status, s.halfPeriod)) (exec (.swdSetClock 100000) (owned [])) = some (.ok, 625) := by
  decide

/-! ### JTAG stub and SUSPEND -/

/-- V100. -/
theorem test_jtagAvailable : shows (fun s => s.rsp.status) (exec .jtagAvailable (owned [])) = some .unavailable := by decide

/-- V101. -/
theorem test_jtagAcquire :
    shows (fun s => (s.owner, events s, s.mode.clk)) (exec .jtagAcquire (fresh [])) = some (.jtag, [], .inp) := by
  decide

/-- V105. -/
theorem test_jtagRelease : shows (fun s => (s.owner, events s)) (exec .jtagRelease jtagOwned) = some (.free, []) := by decide

/-- V102, and V70 of a stub that does not hold the bus. -/
theorem test_jtagSequences :
    shows (fun s => s.rsp) (exec (.jtagSequences 8 [0xFF]) jtagOwned) = some ⟨.ok, 0, true⟩ ∧
    shows (fun s => s.rsp) (exec (.jtagSequences 8 [0xFF]) (owned [])) = some ⟨.refused, 0, true⟩ := by
  decide

/-- V103, V104. -/
theorem test_jtagSetClock :
    shows (fun s => (s.maxFreq, s.halfPeriod)) (exec (.jtagSetClock 10000000) jtagOwned) = some (10000000, 6) ∧
    shows (fun s => s.rsp.status) (exec (.jtagSetClock 125000000) jtagOwned) = some .clockRejected := by
  decide

/-- V106, V108: what SUSPEND floats. -/
theorem test_suspend :
    shows (fun s => (s.owner, events s)) (exec .suspend (owned [])) =
      some (.free, [.mode .clk .inp, .mode .dio .inp]) ∧
    shows events (exec .suspend { owned [] with mode := ⟨.out, .inp, .inp⟩ }) = some [.mode .clk .inp] := by
  decide

/-! ### Codes that name no operation, and the command port -/

/-- V70, last row: refused, nothing recorded, the owner unchanged. -/
theorem test_reserved_is_refused :
    shows (fun s => (s.rsp, s.owner, events s)) (exec .reserved01111 (owned [])) = some (⟨.refused, 0, true⟩, .swd, []) := by
  decide

/-- R114 (b), V70: an internal code offered on the command port is refused by the step. -/
theorem test_internal_code_is_refused :
    shows (fun s => (s.rsp, s.offers, events s)) (step { owned [] with offers := [{ op := 0b10001 }] }) =
      some (⟨.refused, 0, true⟩, [], []) := by
  decide

/-- R282: a step performs the offer to its end, and leaves the next one offered. -/
theorem test_step_performs_one_offer :
    shows (fun s => (s.owner, s.busy, s.offers)) (step { fresh [] with offers := [{ op := 4 }, { op := 5 }] }) =
      some (.swd, false, [{ op := 5 }]) := by
  decide

/-- R325, R287: a run of two operations has two responses, and ends. -/
theorem test_run_collects_the_responses :
    (match runFrom ⟨[{ op := 0b00100 }, { op := 0b01000, trn := 1 }], []⟩ (fresh []) with
      | .next q => some (q.responses, q.final.offers, q.final.busy)
      | .fault _ | .refused _ => none) =
    some ([⟨.ok, 0, true⟩, ⟨.unsupportedConfiguration, 0, true⟩], [], false) := by
  decide

/-- R322: a run that asks for 0 Hz has no result. -/
theorem test_run_faults_at_zero_hz :
    run ⟨[{ op := 0b00001 }], []⟩ = .fault .divideByZero := by
  rfl

/-- R101, R202: an ACK code that is none of the three, in the sequencer's own register: the flush, then `AckNoResponse`. -/
theorem test_unknown_ack_code_is_no_response :
    shows (fun s => (s.rsp.status, s.ack, events s))
      (step { owned [] with mode := ⟨.out, .inp, .inp⟩, useq := [.ack 0b111] }) =
    some (.ackNoResponse, 0b111, [.mode .dio .out] ++ out [0, 0, 0, 0] ++ [.mode .dio .inp]) := by
  decide

/-- R114 (g): a request byte of wrong parity is put on no wire. -/
theorem test_malformed_request_is_not_sent :
    step { owned [] with useq := [.request 0b10000101] } = .next (owned []) := by
  rfl

/-- A placed word is what the next step runs. -/
theorem test_placed_word_is_stepped :
    shows (fun s => (s.owner, s.rsp.status)) (step ((fresh []).withFetchWord 8 0x04)) = some (.swd, .ok) := by
  decide

/-! ### Wire frames -/

/-- V30, first row of the trace: the request of `READ(0, 1)`. -/
theorem test_wireRequestRead :
    shows (fun s => (s.req, s.phase, events s)) (exec (.wireRequestRead false 1) (owned [])) =
    some (0x8D, .requestSent, out [1, 0, 1, 1, 0, 0, 0, 1]) := by
  decide

/-- V52: the request of `WRITE(0, 0)`. -/
theorem test_wireRequestWrite :
    shows (fun s => (s.req, events s)) (exec (.wireRequestWrite false 0) (owned [])) =
    some (0x81, out [1, 0, 0, 0, 0, 0, 0, 1]) := by
  decide

/-- V30: the ACK phase 0, 0, 1, 0 is WAIT. -/
theorem test_wireAckphaseRead :
    shows (fun s => (s.ack, events s)) (exec (.wireAckphaseRead 0b0100) (owned [])) =
    some (0b010, .mode .dio .inp :: inn [0, 0, 1, 0]) := by
  decide

/-- V53: the ACK phase 0, 0, 0, 1, 1 is FAULT. -/
theorem test_wireAckphaseWrite :
    shows (fun s => (s.ack, events s)) (exec (.wireAckphaseWrite 0b11000) (owned [])) =
    some (0b100, .mode .dio .inp :: inn [0, 0, 0, 1, 1]) := by
  decide

/-- R200: after OK a read receives, a write sends. -/
theorem test_wireAckOk :
    shows (fun s => s.phase) (exec .wireAckOk { owned [] with req := 0xA5 }) = some .dataPhase ∧
    shows (fun s => s.phase) (exec .wireAckOk { owned [] with req := 0x81 }) = some .dataSend := by
  decide

/-- V30, its end. -/
theorem test_wireAckWait :
    shows (fun s => (s.rsp.status, events s)) (exec .wireAckWait { owned [] with mode := ⟨.out, .inp, .inp⟩ }) =
    some (.ackWait, [.mode .dio .out] ++ out [0, 0, 0, 0] ++ [.mode .dio .inp]) := by
  decide

/-- V31, its end. -/
theorem test_wireAckFault :
    shows (fun s => (s.rsp.status, s.mode.dio)) (exec .wireAckFault { owned [] with mode := ⟨.out, .inp, .inp⟩ }) =
    some (.ackFault, .inp) := by
  decide

/-! ### Witnesses: every hypothesis of a statement can be met -/

theorem witness_ResetPerformsTimConfigure : (1 : Word) ≠ 0 ∧ (0xFFFFFFFF : Word) ≠ 0 := by decide

/-- A state that meets the invariants and whose step takes up an offer. -/
theorem witness_EveryStepKeepsTheInvariants :
    ∃ s t : State, Inv s ∧ step s = .next t ∧ t.owner = .swd := by
  refine ⟨{ fresh [] with offers := [{ op := 4 }] }, _,
    ⟨rfl, ⟨rfl, rfl, rfl⟩, rfl, fun _ => ⟨rfl, rfl⟩, ⟨by decide, by decide, rfl⟩⟩, rfl, rfl⟩

/-- One state per clause: an accepted offer, and a frame the sequencer issues. -/
theorem witness_StepRunsTheDecodedOperation :
    ((fresh []).useq = [] ∧ (fresh []).busy = false ∧
      ({ fresh [] with offers := [{ op := 14, word := 5 }] } : State).offers = [{ op := 14, word := 5 }] ∧
      decode (.command { op := 14, word := 5 }) = .ok (.jtagSetClock 5)) ∧
    (({ fresh [] with useq := [.ack 0b100] } : State).useq = [.ack 0b100] ∧
      decode (.internal (.ack 0b100)) = .ok .wireAckFault) := by
  decide

/-- A busy block with an offer waiting, and an idle one with none. -/
theorem witness_AnOfferWaitsWhileBusy :
    (({ fresh [] with busy := true, offers := [{ op := 0 }] } : State).useq = [] ∧
      ({ fresh [] with busy := true, offers := [{ op := 0 }] } : State).busy = true) ∧
    ((fresh []).useq = [] ∧ (fresh []).offers = []) := by
  decide

/-- The first and the last internal code. -/
theorem witness_InternalCodesAreRefusedOnTheCommandPort :
    ((fresh []).useq = [] ∧ (fresh []).busy = false) ∧
    (16 ≤ ({ op := 0b10000 } : CmdPort).op.toNat ∧ ({ op := 0b10000 } : CmdPort).op.toNat ≤ 22) ∧
    (16 ≤ ({ op := 0b10110 } : CmdPort).op.toNat ∧ ({ op := 0b10110 } : CmdPort).op.toNat ≤ 22) := by
  decide

/-- The largest operands that are well formed, and the smallest. -/
theorem witness_DecodeOfEncodeIsTheOperation :
    WellFormed (.timDelay (2 ^ 64 - 1)) ∧ WellFormed (.sendBits 32 0xFFFFFFFF) ∧ WellFormed (.sendBits 0 0) ∧
    WellFormed (.recvBits 32) ∧ WellFormed (.swdWrite true 3 0xFFFFFFFF) := by
  decide

theorem witness_DecodedOperationsAreWellFormed :
    decode (.internal (.micro { op := 21, count := 32, value := 0xFFFFFFFF })) = .ok (.sendBits 32 0xFFFFFFFF) ∧
    decode (.internal (.micro { op := 20, count := 0xFFFFFFFFFFFFFFFF })) = .ok (.timDelay 18446744073709551615) := by
  decide

/-- The codes at which the three clauses meet. -/
theorem witness_CommandCodesSplitAsTheTableSays :
    ({ op := 14 } : CmdPort).op.toNat < 15 ∧ ({ op := 15 } : CmdPort).op.toNat = 15 ∧
    23 ≤ ({ op := 23 } : CmdPort).op.toNat ∧ 16 ≤ ({ op := 16 } : CmdPort).op.toNat ∧
    ({ op := 22 } : CmdPort).op.toNat ≤ 22 := by
  decide

theorem witness_ReceivedBitsEnterLsbFirst : (32 : Nat) ≤ 32 ∧ (0 : Nat) ≤ 32 := by decide

theorem witness_AckCodeIsBitsOneToThree : ((4 : Nat) = 4 ∨ (4 : Nat) = 5) ∧ ((5 : Nat) = 4 ∨ (5 : Nat) = 5) ∧ 2 < 3 := by decide

/-- A request above half the processor frequency. -/
theorem witness_HalfPeriodArithmetic :
    (62500001 : Word) ≠ 0 ∧ (125000000 : Word).toNat < 2 * (62500001 : Word).toNat := by
  decide

/-- Both clauses of the write, on one line each. -/
theorem witness_PinWriteWritesTheLatch : (owned []).mode.get .clk = .out ∧ (owned []).mode.get .rst ≠ .out := by decide

/-- Both clauses of the read, on one line each. -/
theorem witness_PinReadSamplesTheEnvironment : (owned []).mode.get .rst = .inp ∧ (owned []).mode.get .clk ≠ .inp := by decide

theorem witness_TimConfigureSetsTheTimingRegisters : (1 : Word) ≠ 0 := by decide

/-- The three operations, and both range clauses at the value where they meet: the processor frequency and one below it;
0 Hz; and a bus nobody holds. -/
theorem witness_SetClockNegotiatesTheHalfPeriod :
    (owned []).owner = .swd ∧ jtagOwned.owner = .jtag ∧
    (owned []).cpuFreq.toNat ≤ (125000000 : Word).toNat ∧
    ((124999999 : Word).toNat < (owned []).cpuFreq.toNat ∧ (124999999 : Word) ≠ 0) ∧
    ((1 : Word).toNat < jtagOwned.cpuFreq.toNat ∧ (1 : Word) ≠ 0) ∧ 0 < (owned []).cpuFreq.toNat ∧
    (fresh []).owner ≠ .swd ∧ (fresh []).owner ≠ .jtag := by
  decide

/-- The decided mask positions, and others. -/
theorem witness_SwjDriveDrivesFloatsAndSamples : MaskBits.Distinct ⟨0, 1, 7⟩ ∧ MaskBits.Distinct ⟨7, 6, 0⟩ := by decide

/-- A count that the bytes clamp, and a count that they do not. -/
theorem witness_SwjClockSequenceClocksTheBits :
    16 = min (100 : Word).toNat (8 * ([0xFF, 0x01] : List Byte).length) ∧
    3 = min (3 : Word).toNat (8 * ([0x05] : List Byte).length) ∧ 0 = min (8 : Word).toNat (8 * ([] : List Byte).length) := by
  decide

/-- 32 bits with the clock driven, no bit without it, one bit without it. -/
theorem witness_SendBitsClocksLsbFirst :
    (32 ≤ 32 ∧ ((owned []).mode.clk = .out ∨ 32 = 0)) ∧ (0 ≤ 32 ∧ ((fresh []).mode.clk = .out ∨ 0 = 0)) ∧
    ((fresh []).mode.clk ≠ .out ∧ 0 < 1) := by
  decide

/-- 32 bits with the clock driven, no bit without it, one bit without it. -/
theorem witness_RecvBitsSamplesLsbFirst :
    (32 ≤ 32 ∧ ((owned []).mode.clk = .out ∨ 32 = 0)) ∧ (0 ≤ 32 ∧ ((fresh []).mode.clk = .out ∨ 0 = 0)) ∧
    ((fresh []).mode.clk ≠ .out ∧ 0 < 1) := by
  decide

theorem witness_SwdAcquireDrivesBothLines : (fresh []).owner = .free ∧ jtagOwned.owner ≠ .free := by decide

/-- The holders of the bus who may release it, and a bus that neither may. -/
theorem witness_ReleaseAndSuspendFloatBothLines :
    (owned []).owner = .swd ∧ jtagOwned.owner = .jtag ∧ (fresh []).owner ≠ .swd ∧ (fresh []).owner ≠ .jtag := by
  decide

theorem witness_JtagStubTouchesNoLine :
    (fresh []).owner = .free ∧ jtagOwned.owner = .jtag ∧ (owned []).owner ≠ .free ∧ (owned []).owner ≠ .jtag := by
  decide

theorem witness_SwdReadWithAckOk :
    (owned (bits [0, 1, 0, 0])).owner = .swd ∧ ackReceived (owned (bits [0, 1, 0, 0])) = 0b001 := by
  decide

/-- WAIT, FAULT, and a line stuck high. -/
theorem witness_SwdReadWithAckError :
    (owned (bits [0, 0, 1, 0])).owner = .swd ∧ ackReceived (owned (bits [0, 0, 1, 0])) ≠ 0b001 ∧
    ackReceived (owned (bits [0, 0, 0, 1])) ≠ 0b001 ∧ ackReceived (owned (bits [1, 1, 1, 1])) ≠ 0b001 := by
  decide

theorem witness_SwdWriteWithAckOk :
    (owned (bits [0, 1, 0, 0, 1])).owner = .swd ∧ ackReceived (owned (bits [0, 1, 0, 0, 1])) = 0b001 := by
  decide

/-- WAIT, FAULT, and a line stuck low. -/
theorem witness_SwdWriteWithAckError :
    (owned (bits [0, 0, 1, 0, 0])).owner = .swd ∧ ackReceived (owned (bits [0, 0, 1, 0, 0])) ≠ 0b001 ∧
    ackReceived (owned (bits [0, 0, 0, 1, 1])) ≠ 0b001 ∧ ackReceived (owned (bits [0, 0, 0, 0, 0])) ≠ 0b001 := by
  decide

theorem witness_SwdConfigureAcceptsOneConfiguration : (owned []).owner = .swd ∧ (fresh []).owner ≠ .swd := by decide

/-- A read and a write answered WAIT, and one whose line is stuck high. -/
theorem witness_NonOkAckFlushesFourLowBits :
    (owned (bits [0, 0, 1, 0, 0])).owner = .swd ∧ ackReceived (owned (bits [0, 0, 1, 0, 0])) ≠ 0b001 ∧
    ackReceived (owned (bits [1, 1, 1, 1, 1])) ≠ 0b001 := by
  decide

theorem witness_TransactionFramesOnTheWire : (owned []).owner = .swd := by decide

theorem witness_TransactionLengths : (owned []).owner = .swd := by decide

/-- An idle block that holds the bus, for either kind of ACK; both operations give a next state. -/
theorem witness_PhasesLabelTheirClocks :
    (owned (bits [0, 0, 1, 0, 0])).owner = .swd ∧ (owned (bits [0, 0, 1, 0, 0])).phase = .idle ∧
    false = decide (ackReceived (owned (bits [0, 0, 1, 0, 0])) = 0b001) ∧
    true = decide (ackReceived (owned (bits [0, 1, 0, 0, 0])) = 0b001) ∧
    (∃ t, exec (.swdRead false 0) (owned (bits [0, 0, 1, 0, 0])) = .next t) ∧
    (∃ t, exec (.swdWrite false 0 0) (owned (bits [0, 0, 1, 0, 0])) = .next t) :=
  ⟨rfl, rfl, by decide, by decide, exists_next_of_isSome (by decide), exists_next_of_isSome (by decide)⟩

/-- Each of the four operations gives a next state. -/
theorem witness_DurationLowerBounds :
    (owned (bits [0, 0, 1, 0, 0])).owner = .swd ∧
    (∃ t, exec (.swdRead false 0) (owned (bits [0, 0, 1, 0, 0])) = .next t) ∧
    (∃ t, exec (.swdWrite false 0 0) (owned (bits [0, 0, 1, 0, 0])) = .next t) ∧
    (∃ t, exec (.swjClockSequence 3 [0x05]) (fresh []) = .next t) ∧
    (∃ t, exec (.swjDrive 0x80 0x80 1) (fresh (bits [0, 1, 1])) = .next t) :=
  ⟨rfl, exists_next_of_isSome (by decide), exists_next_of_isSome (by decide), exists_next_of_isSome (by decide),
    exists_next_of_isSome (by decide)⟩

/-- Two environments that differ in the turnaround sample of a read alone. -/
theorem witness_TurnaroundSamplesAreIgnored :
    (owned (bits [0, 0, 1, 0])).owner = .swd ∧ (owned (bits [1, 0, 1, 0])).owner = .swd ∧
    (∀ k, k ≠ 0 → answer (owned (bits [0, 0, 1, 0])) k = answer (owned (bits [1, 0, 1, 0])) k) ∧
    (∃ t, exec (.swdRead false 0) (owned (bits [0, 0, 1, 0])) = .next t) ∧
    (∃ t, exec (.swdRead false 0) (owned (bits [1, 0, 1, 0])) = .next t) := by
  refine ⟨rfl, rfl, ?_, exists_next_of_isSome (by decide), exists_next_of_isSome (by decide)⟩
  intro k hk
  cases k with
  | zero => exact absurd rfl hk
  | succ k => rfl

/-- Two environments that differ in both turnaround samples of a write alone. -/
theorem witness_TurnaroundSamplesAreIgnored_write :
    (∀ k, k ≠ 0 → k ≠ 4 → answer (owned (bits [0, 0, 1, 0, 0])) k = answer (owned (bits [1, 0, 1, 0, 1])) k) ∧
    (∃ t, exec (.swdWrite false 0 0) (owned (bits [0, 0, 1, 0, 0])) = .next t) ∧
    (∃ t, exec (.swdWrite false 0 0) (owned (bits [1, 0, 1, 0, 1])) = .next t) := by
  refine ⟨?_, exists_next_of_isSome (by decide), exists_next_of_isSome (by decide)⟩
  intro k h0 h4
  match k with
  | 0 => exact absurd rfl h0
  | 1 | 2 | 3 => rfl
  | 4 => exact absurd rfl h4
  | k + 5 => rfl

/-- A block that drives its clock, and one that does not. -/
theorem witness_WireAckPhaseExtractsTheCode : (owned []).mode.clk = .out ∧ (fresh []).mode.clk ≠ .out := by decide

/-- A block that drives its clock, also with a code that is none of the three issued next; and one that does not. -/
theorem witness_WireAckErrorsFlush :
    (owned []).mode.clk = .out ∧
    ((0b111 : BitVec 3) ≠ 0b001 ∧ (0b111 : BitVec 3) ≠ 0b010 ∧ (0b111 : BitVec 3) ≠ 0b100 ∧
      ({ owned [] with useq := [.ack 0b111] } : State).useq = .ack 0b111 :: [] ∧
      ({ owned [] with useq := [.ack 0b111] } : State).mode.clk = .out) ∧
    (fresh []).mode.clk ≠ .out ∧ ({ fresh [] with useq := [.ack 0b000] } : State).mode.clk ≠ .out := by
  decide

/-- WAIT, FAULT and a line stuck high, with the four and the five bits the environment answers. -/
theorem witness_AnErrorTransactionIsItsFrames :
    (owned (bits [1, 0, 1, 0, 1])).owner = .swd ∧
    ackReceived (owned (bits [1, 0, 1, 0, 1])) ≠ 0b001 ∧ ackReceived (owned (bits [1, 0, 1, 0, 1])) = 0b010 ∧
    ackReceived (owned (bits [1, 0, 0, 1, 1])) ≠ 0b001 ∧ ackReceived (owned (bits [1, 0, 0, 1, 1])) = 0b100 ∧
    ackReceived (owned (bits [1, 1, 1, 1, 1])) ≠ 0b001 ∧
    (∀ i, i < 4 → (0b0101 : BitVec 4).getLsbD i = answer (owned (bits [1, 0, 1, 0, 1])) i) ∧
    (∀ i, i < 5 → (0b10101 : BitVec 5).getLsbD i = answer (owned (bits [1, 0, 1, 0, 1])) i) ∧
    (∀ i, i < 4 → (0b1001 : BitVec 4).getLsbD i = answer (owned (bits [1, 0, 0, 1, 1])) i) ∧
    (∀ i, i < 5 → (0b11001 : BitVec 5).getLsbD i = answer (owned (bits [1, 0, 0, 1, 1])) i) ∧
    (∀ i, i < 5 → (0b11111 : BitVec 5).getLsbD i = answer (owned (bits [1, 1, 1, 1, 1])) i) := by
  decide

/-- An operation of the other engine, an acquire of a bus that is held, a reserved code. -/
theorem witness_WhatIsNotPermittedIsRefused :
    (isExternal (.jtagSetClock 1) = true ∧ permitted (owned []).owner (.jtagSetClock 1) = false) ∧
    (isExternal .swdAcquire = true ∧ permitted jtagOwned.owner .swdAcquire = false) ∧
    (namesNoOperation .reserved01111 = true ∧ namesNoOperation .unused11111 = true) := by
  decide

/-- A transaction, a clock request, an operation anyone may ask for. -/
theorem witness_WhatIsPermittedCompletes :
    (permitted (owned []).owner (.swdRead true 3) = true ∧ requestedHz (.swdRead true 3) ≠ some 0) ∧
    (permitted jtagOwned.owner (.jtagSetClock 1) = true ∧ requestedHz (.jtagSetClock 1) ≠ some 0) ∧
    (permitted (fresh []).owner .suspend = true ∧ requestedHz .suspend ≠ some 0) := by
  decide

/-- A run of an operation that is permitted, one that is not, and a code that names none, none of which asks for 0 Hz. -/
theorem witness_WhatIsPermittedCompletes_run :
    Inv (fresh []) ∧
    (∀ p ∈ ([{ op := 4 }, { op := 14, word := 5 }, { op := 15 }] : List CmdPort), ∀ i,
      decode (.command p) = .ok i → requestedHz i ≠ some 0) := by
  refine ⟨⟨rfl, ⟨rfl, rfl, rfl⟩, rfl, fun _ => ⟨rfl, rfl⟩, ⟨by decide, by decide, rfl⟩⟩, ?_⟩
  intro p hp i hi
  simp only [List.mem_cons, List.not_mem_nil, or_false] at hp
  rcases hp with rfl | rfl | rfl <;> · cases hi; decide

theorem witness_NoStepMisusesAPin : (fresh []).useq = [] := by decide

/-- One operation of each kind named, each giving a next state. -/
theorem witness_PinlessOperationsLeaveTheTrace :
    (∃ t, exec (.swdConfigure 1 false) (owned []) = .next t) ∧
    (requestedHz (.timSetClock 100000) = some 100000 ∧ ∃ t, exec (.timSetClock 100000) (owned []) = .next t) ∧
    (∃ t, exec .jtagAvailable (fresh []) = .next t) ∧ (∃ t, exec (.jtagSequences 8 [0xFF]) jtagOwned = .next t) ∧
    (isOffer .reserved01111 = true ∧ permitted (fresh []).owner .reserved01111 = false ∧
      ∃ t, exec .reserved01111 (fresh []) = .next t) :=
  ⟨exists_next_of_isSome (by decide), ⟨rfl, exists_next_of_isSome (by decide)⟩, exists_next_of_isSome (by decide),
    exists_next_of_isSome (by decide), rfl, rfl, exists_next_of_isSome (by decide)⟩

/-- The operation that drives the reset line, both ways. -/
theorem witness_ResetLineIsNeverDrivenHigh :
    isOffer (.swjDrive 0x80 0x80 0) = true ∧
    (∃ t, exec (.swjDrive 0x80 0x80 0) (fresh (bits [0, 0, 0])) = .next t) ∧
    (∃ t, exec (.swjDrive 0x00 0x80 0) (fresh (bits [0, 0, 0])) = .next t) :=
  ⟨rfl, exists_next_of_isSome (by decide), exists_next_of_isSome (by decide)⟩

/-- An accepted clock request, and an operation that leaves every timing register. -/
theorem witness_TimingRegistersHaveTheirWriters :
    (∃ t, exec (.timSetClock 100000) (fresh []) = .next t) ∧ (∀ cpu max, Instr.timSetClock 100000 ≠ .timConfigure cpu max) :=
  ⟨exists_next_of_isSome (by decide), fun _ _ h => nomatch h⟩

/-- Each way the bus changes hands. -/
theorem witness_OwnerChangesOnlyByHandoff :
    shows (fun t => decide (t.owner ≠ .free)) (exec .swdAcquire (fresh [])) = some true ∧
    shows (fun t => decide (t.owner ≠ .free)) (exec .jtagAcquire (fresh [])) = some true ∧
    shows (fun t => decide (t.owner ≠ .swd)) (exec .swdRelease (owned [])) = some true ∧
    shows (fun t => decide (t.owner ≠ .jtag)) (exec .suspend jtagOwned) = some true := by
  decide

theorem witness_TraceOnlyGrows : ∃ t, exec (.swdRead false 0) (owned (bits [0, 0, 1, 0])) = .next t :=
  exists_next_of_isSome (by decide)

/-- A refused read, and a request frame. -/
theorem witness_TransactionRegistersHaveTheirWriters :
    (∃ t, exec (.swdRead true 3) jtagOwned = .next t) ∧ jtagOwned.owner ≠ .swd ∧
    (∃ t, exec (.wireRequestRead true 3) jtagOwned = .next t) :=
  ⟨exists_next_of_isSome (by decide), by decide, exists_next_of_isSome (by decide)⟩

end Sys2Proof.Tests
end

section
/-! The open parameters read as numbers (R6), and the constraint of R302 between them. -/

namespace Sys2Proof

theorem Config.cpuFreq_toNat : Config.cpuFreq.toNat = Config.cpuFreqDraw.toNat % 4294967294 + 2 :=
  BitVec.toNat_ofNatLT ..

/-- The modulus is the value of `CPU_FREQ` less one, so the draw ranges over exactly the admitted frequencies. -/
theorem Config.initMaxFreq_toNat :
    Config.initMaxFreq.toNat = Config.initMaxFreqDraw.toNat % (Config.cpuFreq.toNat - 1) + 1 := by
  rw [Config.cpuFreq_toNat]
  exact BitVec.toNat_ofNatLT ..

theorem Config.one_lt_cpuFreq : 1 < Config.cpuFreq.toNat := by
  rw [Config.cpuFreq_toNat]
  omega

theorem Config.initMaxFreq_pos : 0 < Config.initMaxFreq.toNat := by
  rw [Config.initMaxFreq_toNat]
  exact Nat.succ_pos _

theorem Config.initMaxFreq_lt_cpuFreq : Config.initMaxFreq.toNat < Config.cpuFreq.toNat := by
  have hcpu := Config.one_lt_cpuFreq
  have hrem := Nat.mod_lt Config.initMaxFreqDraw.toNat (Nat.sub_pos_of_lt hcpu)
  rw [Config.initMaxFreq_toNat]
  omega

/-- Settles O2: the remainder that makes `INIT_MAX_FREQ` is taken modulo `CPU_FREQ - 1`, then raised by one. -/
theorem parametersAreAdmitted : Obligations.ParametersAreAdmitted :=
  ⟨Config.initMaxFreq_pos, Config.initMaxFreq_lt_cpuFreq⟩

end Sys2Proof
end

section
/-! The registers only a few operations write (R26, R28, R31, R33, R34) and the two queues, as one record: what leaves them
alone is said once for each operation of the state. -/

namespace Sys2Proof.Machine

/-- The four timing registers (R26). -/
structure Timing where
  cpuFreq     : Word
  cyclesPerUs : Word
  maxFreq     : Word
  halfPeriod  : Word

/-- The timing registers, the owner, the transaction registers `req`, `ack`, `par`, and the queues: the state without the lines,
the counters, the shift register, the response, the phase, the environment and the trace. -/
structure Registers where
  timing : Timing
  owner  : Owner
  req    : BitVec 8
  ack    : BitVec 3
  par    : Bool
  offers : List CmdPort
  useq   : List SeqFrame

def State.timing (s : State) : Timing := ⟨s.cpuFreq, s.cyclesPerUs, s.maxFreq, s.halfPeriod⟩

def State.registers (s : State) : Registers := ⟨s.timing, s.owner, s.req, s.ack, s.par, s.offers, s.useq⟩

/-! ### What keeps them -/

@[simp] theorem record_registers (e : Event) (s : State) : (record e s).registers = s.registers := rfl

@[simp] theorem delay_registers (n : Nat) (s : State) : (delay n s).registers = s.registers := rfl

@[simp] theorem dropAnswers_registers (k : Nat) (s : State) : (dropAnswers k s).registers = s.registers := rfl

@[simp] theorem respond_registers (st : Status) (d : Word) (s : State) : (respond st d s).registers = s.registers := rfl

@[simp] theorem refuse_registers (s : State) : (refuse s).registers = s.registers := rfl

@[simp] theorem setMode_registers (L : Line) (m : Mode) (s : State) : (setMode L m s).registers = s.registers := by
  rw [setMode_under]; rfl

@[simp] theorem floatBus_registers (s : State) : (floatBus s).registers = s.registers := by
  rw [floatBus_eq]; rfl

@[simp] theorem driveBus_registers (s : State) : (driveBus s).registers = s.registers := by
  rw [driveBus_eq]; rfl

/-! ### Computations that may fault -/

/-- A sequence of two computations answers when both do. -/
theorem bind_eq_ok {α β : Type} {x : Except Fault α} {f : α → Except Fault β} {b : β} :
    x >>= f = .ok b ↔ ∃ a, x = .ok a ∧ f a = .ok b := by
  cases x with
  | error e => exact ⟨nofun, nofun⟩
  | ok a => exact ⟨fun h => ⟨a, rfl, h⟩, fun ⟨_, ha, h⟩ => Except.ok.inj ha ▸ h⟩

theorem pure_eq_ok {α : Type} {a b : α} : (pure a : Except Fault α) = .ok b ↔ a = b :=
  Except.ok.injEq a b ▸ Iff.rfl

theorem pinWrite_registers {L : Line} {b : Bool} {s t : State} (h : pinWrite L b s = .ok t) :
    t.registers = s.registers := by
  unfold pinWrite at h
  split at h
  · cases h; rfl
  · cases h

theorem pinRead_next {L : Line} {b : Bool} {s t : State} (h : pinRead L s = .ok (b, t)) :
    t = record (.sample L b) (dropAnswers 1 s) := by
  unfold pinRead at h
  split at h
  · cases h; rfl
  · cases h

theorem pinRead_registers {L : Line} {b : Bool} {s t : State} (h : pinRead L s = .ok (b, t)) :
    t.registers = s.registers := by
  rw [pinRead_next h]; rfl

theorem engOutBit_registers {b : Bool} {s t : State} (h : engOutBit b s = .ok t) : t.registers = s.registers := by
  simp only [engOutBit, bind_eq_ok, pure_eq_ok] at h
  obtain ⟨s₁, h₁, s₂, h₂, s₃, h₃, rfl⟩ := h
  rw [delay_registers, pinWrite_registers h₃, delay_registers, pinWrite_registers h₂, pinWrite_registers h₁]

theorem engInBit_registers {b : Bool} {s t : State} (h : engInBit s = .ok (b, t)) : t.registers = s.registers := by
  simp only [engInBit, bind_eq_ok, pure_eq_ok, Prod.exists, Prod.mk.injEq] at h
  obtain ⟨s₁, h₁, _, s₂, h₂, s₃, h₃, _, rfl⟩ := h
  rw [delay_registers, pinWrite_registers h₃, pinRead_registers h₂, delay_registers, pinWrite_registers h₁]

theorem sendLoop_registers {v : Word} {k : Nat} {s t : State} (h : sendLoop v k s = .ok t) :
    t.registers = s.registers := by
  induction k generalizing s with
  | zero => cases h; rfl
  | succ k ih =>
    obtain ⟨s₁, h₁, h⟩ := bind_eq_ok.mp h
    have hrest := ih h
    exact hrest.trans (engOutBit_registers h₁ :)

theorem recvLoop_registers {k : Nat} {v w : Word} {s t : State} (h : recvLoop k v s = .ok (w, t)) :
    t.registers = s.registers := by
  induction k generalizing v s with
  | zero => cases h; rfl
  | succ k ih =>
    obtain ⟨⟨b, s₁⟩, h₁, h⟩ := bind_eq_ok.mp h
    have hrest := ih h
    exact hrest.trans (engInBit_registers h₁ :)

/-- SEND_BITS of any count, the meaningless ones above 32 included. -/
theorem sendBits_registers {n : Nat} {v : Word} {s t : State} (h : sendBits n v s = .ok t) :
    t.registers = s.registers :=
  (sendLoop_registers h).trans (setMode_registers .dio .out s)

/-- RECV_BITS of any count, the meaningless ones above 32 included. -/
theorem recvBits_registers {n : Nat} {v : Word} {s t : State} (h : recvBits n s = .ok (v, t)) :
    t.registers = s.registers :=
  (recvLoop_registers h).trans (setMode_registers .dio .inp s)

/-! ### Pieces of a transaction that stand alone as wire frames -/

theorem openRequest_registers {apndp rnw : Bool} {a : BitVec 2} {s t : State} (h : openRequest apndp rnw a s = .ok t) :
    t.registers = { s.registers with req := t.req } := by
  rw [openRequest_eq] at h
  cases h; rfl

theorem ackPhase_registers {n : Nat} {s t : State} (h : ackPhase n s = .ok t) :
    t.registers = { s.registers with ack := t.ack } := by
  simp only [ackPhase, bind_eq_ok, pure_eq_ok, Prod.exists] at h
  obtain ⟨v, s₁, h₁, rfl⟩ := h
  exact congrArg (fun r : Registers => { r with ack := ackOf v }) (recvBits_registers h₁)

theorem ackError_registers {s t : State} (h : ackError s = .ok t) : t.registers = s.registers := by
  simp only [ackError, flush, bind_eq_ok, pure_eq_ok] at h
  obtain ⟨s₁, ⟨s₂, h₂, rfl⟩, rfl⟩ := h
  have hsent := sendBits_registers h₂
  exact (setMode_registers .dio .inp s₂).trans hsent

/-- An ACK error begun under the code `c` leaves `c` in `ack`. -/
theorem ackError_of_code_registers {c : BitVec 3} {s t : State} (h : ackError { s with ack := c } = .ok t) :
    t.registers = { s.registers with ack := t.ack } := by
  have hreg := ackError_registers h
  have hack : t.ack = c := congrArg Registers.ack hreg
  rw [hreg, hack]; rfl

end Sys2Proof.Machine
end

section
/-! A transaction between its request and its response (R201, R204), and how it ends. -/

namespace Sys2Proof.Machine

/-- A transaction begun in `s₀` has reached `s`: CLK is driven, the reset line is as it was, and of the registers only those of
the transaction may have changed. -/
structure InTransaction (s₀ s : State) : Prop where
  clk : s.mode.clk = .out
  rst : s.mode.rst = s₀.mode.rst
  dly : s.dly = 0
  registers : s.registers = { s₀.registers with req := s.req, ack := s.ack, par := s.par }

/-- A transaction begun in `s₀` has ended in `t`: the block is idle again. -/
structure TransactionEnded (s₀ t : State) : Prop where
  idle : Idle t
  rst : t.mode.rst = s₀.mode.rst
  registers : t.registers = { s₀.registers with req := t.req, ack := t.ack, par := t.par }

/-- A piece of a transaction that changes no register but those of the transaction. -/
theorem InTransaction.registers_trans {s₀ s t : State} (hs : InTransaction s₀ s)
    (h : t.registers = { s.registers with req := t.req, ack := t.ack, par := t.par }) :
    t.registers = { s₀.registers with req := t.req, ack := t.ack, par := t.par } := by
  rw [h, hs.registers]

theorem openRequest_inTransaction {apndp rnw : Bool} {a : BitVec 2} {s t : State}
    (h : openRequest apndp rnw a s = .ok t) : InTransaction s t := by
  rw [openRequest_eq] at h
  cases h
  exact ⟨rfl, rfl, rfl, rfl⟩

theorem ackPhase_inTransaction {n : Nat} {s₀ s t : State} (h0 : 0 < n) (hn : n ≤ 32) (hs : InTransaction s₀ s)
    (h : ackPhase n s = .ok t) : InTransaction s₀ t := by
  rw [ackPhase_eq hs.clk h0 hn] at h
  cases h
  exact ⟨hs.clk, hs.rst, rfl, hs.registers_trans rfl⟩

theorem receiveData_inTransaction {s₀ s t : State} (hs : InTransaction s₀ s) (h : receiveData s = .ok t) :
    InTransaction s₀ t := by
  rw [receiveData_eq hs.clk] at h
  cases h
  exact ⟨hs.clk, hs.rst, rfl, hs.registers_trans rfl⟩

theorem sendData_inTransaction {data : Word} {s₀ s t : State} (hs : InTransaction s₀ s) (h : sendData data s = .ok t) :
    InTransaction s₀ t := by
  rw [sendData_eq data hs.clk] at h
  cases h
  exact ⟨hs.clk, hs.rst, rfl, hs.registers_trans rfl⟩

theorem trailing_inTransaction {s₀ s t : State} (hs : InTransaction s₀ s) (h : trailing s = .ok t) :
    InTransaction s₀ t ∧ t.mode.dio = .out := by
  rw [trailing_eq hs.clk] at h
  cases h
  exact ⟨⟨hs.clk, hs.rst, rfl, hs.registers_trans rfl⟩, rfl⟩

theorem finishRead_ended {s₀ s t : State} (hs : InTransaction s₀ s) (hd : s.mode.dio = .out)
    (h : finishRead s = .ok t) : TransactionEnded s₀ t := by
  rw [finishRead_eq hd] at h
  cases h
  exact ⟨⟨rfl, rfl, hs.dly⟩, hs.rst, hs.registers_trans rfl⟩

theorem ackError_ended {s₀ s t : State} (hs : InTransaction s₀ s) (h : ackError s = .ok t) :
    TransactionEnded s₀ t := by
  rw [ackError_eq hs.clk] at h
  cases h
  exact ⟨⟨rfl, rfl, rfl⟩, hs.rst, hs.registers_trans rfl⟩

theorem swdRead_ended {apndp : Bool} {a : BitVec 2} {s t : State} (h : swdRead apndp a s = .ok t) :
    TransactionEnded s t := by
  obtain ⟨s₁, h₁, h⟩ := bind_eq_ok.mp h
  obtain ⟨s₂, h₂, h⟩ := bind_eq_ok.mp h
  have hack := ackPhase_inTransaction (by decide) (by decide) (openRequest_inTransaction h₁) h₂
  split at h
  · obtain ⟨s₃, h₃, h⟩ := bind_eq_ok.mp h
    obtain ⟨s₄, h₄, h⟩ := bind_eq_ok.mp h
    obtain ⟨htrail, hdio⟩ := trailing_inTransaction (receiveData_inTransaction hack h₃) h₄
    exact finishRead_ended htrail hdio h
  · exact ackError_ended hack h

theorem swdWrite_ended {apndp : Bool} {a : BitVec 2} {data : Word} {s t : State}
    (h : swdWrite apndp a data s = .ok t) : TransactionEnded s t := by
  obtain ⟨s₁, h₁, h⟩ := bind_eq_ok.mp h
  obtain ⟨s₂, h₂, h⟩ := bind_eq_ok.mp h
  have hack := ackPhase_inTransaction (by decide) (by decide) (openRequest_inTransaction h₁) h₂
  split at h
  · obtain ⟨s₃, h₃, h⟩ := bind_eq_ok.mp h
    obtain ⟨s₄, h₄, h⟩ := bind_eq_ok.mp h
    obtain ⟨htrail, -⟩ := trailing_inTransaction (sendData_inTransaction hack h₃) h₄
    cases h
    exact ⟨⟨rfl, rfl, htrail.dly⟩, htrail.rst, htrail.registers⟩
  · exact ackError_ended hack h

end Sys2Proof.Machine
end

section
/-! The two line-level operations (R170 to R173): where they leave the lines. -/

namespace Sys2Proof.Machine

/-- A line-level operation that began in `s₀` has ended in `t`: its response is given, the lines have modes `m`, and the registers
are kept. -/
structure TransportEnded (m : PerLine Mode) (s₀ t : State) : Prop where
  mode : t.mode = m
  busy : t.busy = false
  phase : t.phase = s₀.phase
  dly : s₀.dly = 0 → t.dly = 0
  registers : t.registers = s₀.registers

/-- SWJ.DRIVE leaves all three lines floating (R171). -/
theorem swjDrive_ended {B : MaskBits} {levels mask : Byte} {settleUs : Word} {s t : State}
    (h : swjDrive B levels mask settleUs s = .ok t) : TransportEnded ⟨.inp, .inp, .inp⟩ s t := by
  simp only [swjDrive, drivePushPull_eq, driveReset_eq, bind_eq_ok, pure_eq_ok, Except.ok.injEq, exists_eq_left',
    Prod.exists] at h
  obtain ⟨c, s₁, h₁, d, s₂, h₂, r, s₃, h₃, rfl⟩ := h
  obtain rfl := pinRead_next h₁
  obtain rfl := pinRead_next h₂
  obtain rfl := pinRead_next h₃
  exact ⟨by simp [setMode_mode, PerLine.set], rfl, by simp [delay], fun _ => by simp [delay],
    by simp [State.registers, State.timing, delay]⟩

/-- SWJ.CLOCK_SEQUENCE leaves CLK and DIO floating (R173). -/
theorem swjClockSequence_ended {bitCount : Word} {bytes : List Byte} {s t : State}
    (h : swjClockSequence bitCount bytes s = .ok t) : TransportEnded ⟨.inp, .inp, s.mode.rst⟩ s t := by
  obtain ⟨s₁, h₁, h⟩ := bind_eq_ok.mp h
  rw [driveBus_eq, swjLoop_eq _ _ _ _ rfl rfl] at h₁
  cases h₁
  rw [floatBus_eq] at h
  cases h
  exact ⟨rfl, rfl, rfl, fun h0 => by simp [h0], rfl⟩

end Sys2Proof.Machine
end

section
/-! What an operation does to the registers, said once over all instructions: every rule about who writes a register is read off
`Effect` (R26, R28, R31, R33, R34). -/

namespace Sys2Proof.Machine

/-- What `i` did to the registers, taking `s` to `t`. -/
inductive Effect (i : Instr) (s t : State) : Prop where
  /-- Every other operation, and every refusal. -/
  | kept (h : t.registers = s.registers)
  /-- TIM.CONFIGURE (R151). -/
  | configured (cpu max : Word) (hi : i = .timConfigure cpu max)
      (h : t.registers = { s.registers with timing := ⟨cpu, cyclesPerUsOf cpu, max, configuredHalfPeriod cpu max⟩ })
  /-- An accepted clock request (R153, R206, R254). -/
  | clocked (hz : Word) (hi : requestedHz i = some hz) (hlt : hz < s.cpuFreq) (h0 : hz ≠ 0) (hok : t.rsp.status = .ok)
      (h : t.registers = { s.registers with timing := ⟨s.cpuFreq, s.cyclesPerUs, hz, halfPeriodOf s.cpuFreq hz⟩ })
  /-- The free bus is acquired (R195, R251). -/
  | acquired (o : Owner) (hfree : s.owner = .free) (hi : (i = .swdAcquire ∧ o = .swd) ∨ (i = .jtagAcquire ∧ o = .jtag))
      (h : t.registers = { s.registers with owner := o })
  /-- The bus is freed (R196, R252, R258). -/
  | freed (hi : i = .suspend ∨ (i = .swdRelease ∧ s.owner = .swd) ∨ (i = .jtagRelease ∧ s.owner = .jtag))
      (hreleased : Released t) (h : t.registers = { s.registers with owner := .free })
  /-- The holder's read or write (R201, R204). -/
  | transacted (hi : (∃ ap a, i = .swdRead ap a) ∨ (∃ ap a d, i = .swdWrite ap a d)) (hswd : s.owner = .swd)
      (h : t.registers = { s.registers with req := t.req, ack := t.ack, par := t.par })
  /-- A request frame (R94). -/
  | requested (hi : ∃ ap a, i = .wireRequestRead ap a ∨ i = .wireRequestWrite ap a)
      (h : t.registers = { s.registers with req := t.req })
  /-- An ACK-phase frame or an ACK code (R98, R101). -/
  | acked (hi : (∃ v, i = .wireAckphaseRead v) ∨ (∃ v, i = .wireAckphaseWrite v) ∨
        i = .wireAckOk ∨ i = .wireAckWait ∨ i = .wireAckFault)
      (h : t.registers = { s.registers with ack := t.ack })

/-! ### Forms many operations share -/

/-- An operation only the owner `o` may use answers by its body to the owner and is refused to everyone else. -/
theorem ownedBy_next {o : Owner} {s t : State} {body : Except Fault State} (h : toOutcome (ownedBy o s body) = .next t) :
    (s.owner = o ∧ body = .ok t) ∨ t = refuse s := by
  by_cases ho : s.owner = o
  · rw [ownedBy_holder ho] at h
    exact .inl ⟨ho, toOutcome_next h⟩
  · rw [ownedBy_other ho] at h
    exact .inr (Host.Outcome.next.inj h).symm

variable {i : Instr} {s t : State}

theorem Effect.of_refuse (h : t = refuse s) : Effect i s t := .kept (h ▸ rfl)

theorem Effect.of_owned {o : Owner} {body : Except Fault State} (h : toOutcome (ownedBy o s body) = .next t)
    (hbody : s.owner = o → body = .ok t → Effect i s t) : Effect i s t := by
  obtain ⟨ho, hb⟩ | hrefused := ownedBy_next h
  · exact hbody ho hb
  · exact .of_refuse hrefused

theorem Effect.of_setClock {hz : Word} (hi : requestedHz i = some hz) (h : setClock hz s = .ok t) : Effect i s t := by
  obtain ⟨-, he⟩ | ⟨-, -, he⟩ | ⟨hlt, h0, he⟩ := setClock_cases hz s <;> rw [he] at h <;> cases h
  · exact .kept rfl
  · exact .clocked hz hi hlt h0 rfl rfl

/-- The bus floats and nobody holds it, whoever freed it. -/
theorem Effect.of_freed (hi : i = .suspend ∨ (i = .swdRelease ∧ s.owner = .swd) ∨ (i = .jtagRelease ∧ s.owner = .jtag))
    (h : t = respond .ok 0 { floatBus s with owner := .free }) : Effect i s t := by
  rw [floatBus_eq] at h
  subst h
  exact .freed hi ⟨rfl, rfl⟩ rfl

/-- Every operation that answers a next state has its effect on the registers. -/
theorem exec_effect (h : exec i s = .next t) : Effect i s t := by
  cases i with
  | suspend => exact .of_freed (.inl rfl) (Host.Outcome.next.inj h).symm
  | timSetClock hz => exact .of_setClock rfl (toOutcome_next h)
  | swjDrive levels mask settleUs => exact .kept (swjDrive_ended (toOutcome_next h)).registers
  | swjClockSequence bitCount bytes => exact .kept (swjClockSequence_ended (toOutcome_next h)).registers
  | swdAcquire =>
    refine .of_owned h fun hfree hb => .acquired .swd hfree (.inl ⟨rfl, rfl⟩) ?_
    cases hb
    exact driveBus_registers { s with owner := .swd }
  | swdRelease => exact .of_owned h fun ho hb => .of_freed (.inr (.inl ⟨rfl, ho⟩)) (Except.ok.inj hb).symm
  | swdRead apndp a =>
    exact .of_owned h fun ho hb => .transacted (.inl ⟨apndp, a, rfl⟩) ho (swdRead_ended hb).registers
  | swdWrite apndp a data =>
    exact .of_owned h fun ho hb => .transacted (.inr ⟨apndp, a, data, rfl⟩) ho (swdWrite_ended hb).registers
  | swdConfigure trn dph =>
    refine .of_owned h fun _ hb => ?_
    split at hb <;> cases hb <;> exact .kept rfl
  | swdSetClock hz => exact .of_owned h fun _ hb => .of_setClock rfl hb
  | jtagAvailable => cases h; exact .kept rfl
  | jtagAcquire =>
    refine .of_owned h fun hfree hb => .acquired .jtag hfree (.inr ⟨rfl, rfl⟩) ?_
    cases hb; rfl
  | jtagRelease => exact .of_owned h fun ho hb => .of_freed (.inr (.inr ⟨rfl, ho⟩)) (Except.ok.inj hb).symm
  | jtagSequences bitCount bytes => exact .of_owned h fun _ hb => .kept (Except.ok.inj hb ▸ rfl)
  | jtagSetClock hz => exact .of_owned h fun _ hb => .of_setClock rfl hb
  | pinSetMode line mode => cases h; exact .kept (setMode_registers line mode s)
  | pinWrite line level => exact .kept (pinWrite_registers (toOutcome_next h))
  | pinRead line =>
    obtain ⟨⟨b, s₁⟩, h₁, h⟩ := bind_eq_ok.mp (toOutcome_next h)
    cases h
    exact .kept (pinRead_registers h₁)
  | timConfigure cpu max => cases h; exact .configured cpu max rfl rfl
  | timDelay n => cases h; exact .kept (delay_registers n s)
  | sendBits n v => exact .kept (sendBits_registers (toOutcome_next h))
  | recvBits n =>
    obtain ⟨⟨v, s₁⟩, h₁, h⟩ := bind_eq_ok.mp (toOutcome_next h)
    cases h
    exact .kept (recvBits_registers h₁ :)
  | wireRequestRead apndp a => exact .requested ⟨apndp, a, .inl rfl⟩ (openRequest_registers (toOutcome_next h))
  | wireRequestWrite apndp a => exact .requested ⟨apndp, a, .inr rfl⟩ (openRequest_registers (toOutcome_next h))
  | wireAckphaseRead v => exact .acked (.inl ⟨v, rfl⟩) (ackPhase_registers (toOutcome_next h) :)
  | wireAckphaseWrite v => exact .acked (.inr (.inl ⟨v, rfl⟩)) (ackPhase_registers (toOutcome_next h) :)
  | wireAckOk => cases h; exact .acked (.inr (.inr (.inl rfl))) rfl
  | wireAckWait => exact .acked (.inr (.inr (.inr (.inl rfl)))) (ackError_of_code_registers (toOutcome_next h))
  | wireAckFault => exact .acked (.inr (.inr (.inr (.inr rfl)))) (ackError_of_code_registers (toOutcome_next h))
  | reserved01111 | unused10111 | unused11000 | unused11001 | unused11010 | unused11011 | unused11100 | unused11101
  | unused11110 | unused11111 => exact .of_refuse (Host.Outcome.next.inj h).symm

/-! ### Read off every effect -/

/-- R26: but for TIM.CONFIGURE, the timing registers change by an accepted clock request only. -/
theorem Effect.timing_cases (e : Effect i s t) (hconf : ∀ cpu max, i ≠ .timConfigure cpu max) :
    t.timing = s.timing ∨
    ∃ hz, requestedHz i = some hz ∧ hz < s.cpuFreq ∧ hz ≠ 0 ∧ t.rsp.status = .ok ∧
      t.timing = ⟨s.cpuFreq, s.cyclesPerUs, hz, halfPeriodOf s.cpuFreq hz⟩ := by
  cases e with
  | configured cpu max hi => exact absurd hi (hconf cpu max)
  | clocked hz hi hlt h0 hok h => exact .inr ⟨hz, hi, hlt, h0, hok, congrArg Registers.timing h⟩
  | kept h | acquired _ _ _ h | freed _ _ h | transacted _ _ h | requested _ h | acked _ h =>
    exact .inl (congrArg Registers.timing h)

/-- No operation touches what the sequencer still issues. -/
theorem Effect.useq (e : Effect i s t) : t.useq = s.useq := by
  cases e with
  | kept h | configured _ _ _ h | clocked _ _ _ _ _ h | acquired _ _ _ h | freed _ _ h | transacted _ _ h | requested _ h
  | acked _ h => exact congrArg Registers.useq h

end Sys2Proof.Machine
end

section
/-! The rules of R26, R28 and R31 to R34 on who writes a register. -/

namespace Sys2Proof.Machine

/-- Settles O57: the accepted clock request is the one effect, but TIM.CONFIGURE's, that reaches a timing register. -/
theorem timingRegistersHaveTheirWriters : Obligations.TimingRegistersHaveTheirWriters := by
  intro i s t h hconf
  obtain hkept | ⟨hz, hi, hlt, -, hok, ht⟩ := (exec_effect h).timing_cases hconf
  · exact ⟨congrArg Timing.cpuFreq hkept, congrArg Timing.cyclesPerUs hkept,
      .inl ⟨congrArg Timing.maxFreq hkept, congrArg Timing.halfPeriod hkept⟩⟩
  · exact ⟨congrArg Timing.cpuFreq ht, congrArg Timing.cyclesPerUs ht, .inr ⟨hz, hi, hlt, hok⟩⟩

/-- Settles O58: of the effects only acquiring and freeing reach the owner. -/
theorem ownerChangesOnlyByHandoff : Obligations.OwnerChangesOnlyByHandoff := by
  intro i s t h hchanged
  cases exec_effect h with
  | acquired o hfree hi h =>
    have ho : t.owner = o := congrArg Registers.owner h
    exact .inl ⟨hfree, ho ▸ hi⟩
  | freed hi hreleased h => exact .inr ⟨congrArg Registers.owner h, hreleased, hi⟩
  | kept h | configured _ _ _ h | clocked _ _ _ _ _ h | transacted _ _ h | requested _ h | acked _ h =>
    exact absurd (congrArg Registers.owner h) hchanged

/-- Settles O60: `par` is reached by the holder's transactions only, `req` by request frames too, `ack` by ACK frames too. -/
theorem transactionRegistersHaveTheirWriters : Obligations.TransactionRegistersHaveTheirWriters := by
  intro i s t h hread hwrite
  cases exec_effect h with
  | transacted hi hswd =>
    obtain ⟨ap, a, rfl⟩ | ⟨ap, a, d, rfl⟩ := hi
    · exact ((hread ap a).elim (· rfl) (· hswd)).elim
    · exact ((hwrite ap a d).elim (· rfl) (· hswd)).elim
  | requested hi h =>
    obtain ⟨ap, a, hi⟩ := hi
    exact ⟨congrArg Registers.par h, fun hne => absurd hi (not_or.mpr (hne ap a)), fun _ _ _ _ _ => congrArg Registers.ack h⟩
  | acked hi h =>
    refine ⟨congrArg Registers.par h, fun _ => congrArg Registers.req h, fun hr hw hok hwait hfault => ?_⟩
    obtain ⟨v, hv⟩ | ⟨v, hv⟩ | hi | hi | hi := hi
    · exact absurd hv (hr v)
    · exact absurd hv (hw v)
    · exact absurd hi hok
    · exact absurd hi hwait
    · exact absurd hi hfault
  | kept h | configured _ _ _ h | clocked _ _ _ _ _ h | acquired _ _ _ h | freed _ _ h =>
    exact ⟨congrArg Registers.par h, fun _ => congrArg Registers.req h, fun _ _ _ _ _ => congrArg Registers.ack h⟩

end Sys2Proof.Machine
end

section
/-! The invariant set of R27 and R40: every operation that can be offered ends at rest, and keeps the timing registers
consistent. -/

namespace Sys2Proof.Machine

/-- The invariant set without `busy`, the sequencer's queue and the timing registers: it holds as an accepted operation
begins. -/
structure Ready (s : State) : Prop where
  phase : s.phase = .idle
  dly : s.dly = 0
  rst : s.mode.rst = .inp
  bus : s.owner ≠ .swd → Released s

theorem inv_iff (s : State) : Inv s ↔ s.useq = [] ∧ s.busy = false ∧ Ready s ∧ TimingInv s := by
  constructor
  · rintro ⟨huseq, ⟨hbusy, hphase, hdly⟩, hrst, hbus, htim⟩
    exact ⟨huseq, hbusy, ⟨hphase, hdly, hrst, hbus⟩, htim⟩
  · rintro ⟨huseq, hbusy, ⟨hphase, hdly, hrst, hbus⟩, htim⟩
    exact ⟨huseq, ⟨hbusy, hphase, hdly⟩, hrst, hbus, htim⟩

section

variable {i : Instr} {s t : State}

/-! ### The timing registers -/

theorem TimingInv.of_eq (hs : TimingInv s) (h : t.timing = s.timing) : TimingInv t := by
  obtain ⟨hpos, hlt, hhalf⟩ := hs
  have hcpu : t.cpuFreq = s.cpuFreq := congrArg Timing.cpuFreq h
  have hmax : t.maxFreq = s.maxFreq := congrArg Timing.maxFreq h
  have hhp : t.halfPeriod = s.halfPeriod := congrArg Timing.halfPeriod h
  exact ⟨by rwa [hmax], by rwa [hmax, hcpu], by rwa [hhp, hcpu, hmax]⟩

/-- The registers an accepted request leaves are consistent, whatever they were before. -/
theorem TimingInv.of_clocked {cpu us hz : Word} (hlt : hz < cpu) (h0 : hz ≠ 0)
    (h : t.timing = ⟨cpu, us, hz, halfPeriodOf cpu hz⟩) : TimingInv t := by
  have hcpu : t.cpuFreq = cpu := congrArg Timing.cpuFreq h
  have hmax : t.maxFreq = hz := congrArg Timing.maxFreq h
  have hhp : t.halfPeriod = halfPeriodOf cpu hz := congrArg Timing.halfPeriod h
  exact ⟨by rw [hmax]; exact (BitVec.pos_iff_ne_zero hz).mpr h0, by rwa [hmax, hcpu], by rw [hhp, hcpu, hmax]⟩

theorem Effect.timingInv (e : Effect i s t) (hconf : ∀ cpu max, i ≠ .timConfigure cpu max) (hs : TimingInv s) :
    TimingInv t := by
  obtain hkept | ⟨hz, -, hlt, h0, -, h⟩ := e.timing_cases hconf
  · exact hs.of_eq hkept
  · exact .of_clocked hlt h0 h

/-! ### The lines and the block at rest -/

/-- The block has answered: it is idle, and the lines are as the invariant set asks. -/
def Settled (t : State) : Prop := t.busy = false ∧ Ready t

theorem settled_respond (st : Status) (d : Word) (hs : Ready s) : Settled (respond st d s) :=
  ⟨rfl, hs.phase, hs.dly, hs.rst, hs.bus⟩

theorem settled_of_owned {o : Owner} {body : Except Fault State} (hs : Ready s)
    (h : toOutcome (ownedBy o s body) = .next t) (hbody : s.owner = o → body = .ok t → Settled t) : Settled t := by
  obtain ⟨ho, hb⟩ | rfl := ownedBy_next h
  · exact hbody ho hb
  · exact settled_respond .refused 0 hs

theorem settled_of_setClock {hz : Word} (hs : Ready s) (h : setClock hz s = .ok t) : Settled t := by
  obtain ⟨-, he⟩ | ⟨-, -, he⟩ | ⟨-, -, he⟩ := setClock_cases hz s <;> rw [he] at h <;> cases h
  · exact settled_respond .clockRejected 0 hs
  · exact settled_respond .ok 0 ⟨hs.phase, hs.dly, hs.rst, hs.bus⟩

theorem settled_of_freed (hs : Ready s) (h : t = respond .ok 0 { floatBus s with owner := .free }) : Settled t := by
  rw [floatBus_eq] at h
  subst h
  exact settled_respond .ok 0 ⟨hs.phase, hs.dly, hs.rst, fun _ => ⟨rfl, rfl⟩⟩

theorem settled_of_acquired (hs : Ready s) (h : t = respond .ok 0 (driveBus { s with owner := .swd })) : Settled t := by
  rw [driveBus_eq] at h
  subst h
  exact settled_respond .ok 0 ⟨hs.phase, hs.dly, hs.rst, fun hne => absurd rfl hne⟩

/-- A transaction leaves the lines driven, as its holder may. -/
theorem TransactionEnded.settled (hs : Ready s) (hswd : s.owner = .swd) (h : TransactionEnded s t) : Settled t := by
  obtain ⟨hbusy, hphase, hdly⟩ := h.idle
  have howner : t.owner = s.owner := congrArg Registers.owner h.registers
  exact ⟨hbusy, hphase, hdly, h.rst.trans hs.rst, fun hne => absurd (howner.trans hswd) hne⟩

theorem TransportEnded.settled {m : PerLine Mode} (hs : Ready s) (h : TransportEnded m s t) (hm : m = ⟨.inp, .inp, .inp⟩) :
    Settled t := by
  have hmode : t.mode = ⟨.inp, .inp, .inp⟩ := h.mode.trans hm
  exact ⟨h.busy, h.phase.trans hs.phase, h.dly hs.dly, by rw [hmode], fun _ => by simp [Released, hmode]⟩

/-- R40: every operation that can be offered leaves the block idle, RST floating, and the bus released unless SWD holds it. -/
theorem exec_settled (hi : isOffer i = true) (hs : Ready s) (h : exec i s = .next t) : Settled t := by
  cases i with
  | suspend => exact settled_of_freed hs (Host.Outcome.next.inj h).symm
  | timSetClock hz => exact settled_of_setClock hs (toOutcome_next h)
  | swjDrive levels mask settleUs => exact (swjDrive_ended (toOutcome_next h)).settled hs rfl
  | swjClockSequence bitCount bytes =>
    exact (swjClockSequence_ended (toOutcome_next h)).settled hs (by rw [hs.rst])
  | swdAcquire => exact settled_of_owned hs h fun _ hb => settled_of_acquired hs (Except.ok.inj hb).symm
  | swdRelease => exact settled_of_owned hs h fun _ hb => settled_of_freed hs (Except.ok.inj hb).symm
  | swdRead apndp a => exact settled_of_owned hs h fun ho hb => (swdRead_ended hb).settled hs ho
  | swdWrite apndp a data => exact settled_of_owned hs h fun ho hb => (swdWrite_ended hb).settled hs ho
  | swdConfigure trn dph =>
    refine settled_of_owned hs h fun _ hb => ?_
    split at hb <;> cases hb <;> exact settled_respond _ 0 hs
  | swdSetClock hz => exact settled_of_owned hs h fun _ hb => settled_of_setClock hs hb
  | jtagAvailable => cases h; exact settled_respond .unavailable 0 hs
  | jtagAcquire =>
    refine settled_of_owned hs h fun hfree hb => ?_
    have hreleased := hs.bus (by rw [hfree]; decide)
    cases hb
    exact settled_respond .ok 0 ⟨hs.phase, hs.dly, hs.rst, fun _ => hreleased⟩
  | jtagRelease => exact settled_of_owned hs h fun _ hb => settled_of_freed hs (Except.ok.inj hb).symm
  | jtagSequences bitCount bytes =>
    exact settled_of_owned hs h fun _ hb => Except.ok.inj hb ▸ settled_respond .ok 0 hs
  | jtagSetClock hz => exact settled_of_owned hs h fun _ hb => settled_of_setClock hs hb
  | reserved01111 | unused10111 | unused11000 | unused11001 | unused11010 | unused11011 | unused11100 | unused11101
  | unused11110 | unused11111 => cases h; exact settled_respond .refused 0 hs
  | pinSetMode | pinWrite | pinRead | timConfigure | timDelay | sendBits | recvBits
  | wireRequestRead | wireRequestWrite | wireAckphaseRead | wireAckphaseWrite
  | wireAckOk | wireAckWait | wireAckFault => exact absurd hi Bool.false_ne_true

/-! ### The step -/

/-- The state in which an offer is performed, `rest` being what is offered after it (R35, R282). -/
def accepted (rest : List CmdPort) (s : State) : State :=
  { s with offers := rest, busy := true, rsp := { s.rsp with valid := false } }

theorem ready_accepted (hs : Ready s) (rest : List CmdPort) : Ready (accepted rest s) :=
  ⟨hs.phase, hs.dly, hs.rst, hs.bus⟩

theorem fetch_nothing_offered (huseq : s.useq = []) (hoffers : s.offers = []) : fetch s = none := by
  simp [fetch, huseq, hoffers]

theorem fetch_offer {p : CmdPort} {rest : List CmdPort} (huseq : s.useq = []) (hbusy : s.busy = false)
    (hoffers : s.offers = p :: rest) : fetch s = some (.command p, accepted rest s) := by
  simp [fetch, accepted, huseq, hbusy, hoffers]

theorem step_of_fetch_none (h : fetch s = none) : step s = .next s := by
  simp only [step, h]

theorem step_of_decode_ok {f : Frame} {s' : State} (hf : fetch s = some (f, s')) (hd : decode f = .ok i) :
    step s = exec i s' := by
  simp only [step, hf, hd]

theorem step_of_decode_error {f : Frame} {e : DecodeError} {s' : State} (hf : fetch s = some (f, s'))
    (hd : decode f = .error e) : step s = onDecodeError e s' := by
  simp only [step, hf, hd]

/-- What the command port carries is an offer, or an internal code (R92, R114). -/
theorem decodeCommand_cases (p : CmdPort) :
    (∃ i, decode (.command p) = .ok i ∧ isOffer i = true) ∨ decode (.command p) = .error .internalOnCommandPort := by
  simp only [decode, decodeCommand]
  split
  case h_26 => exact .inr rfl
  all_goals exact .inl ⟨_, rfl, rfl⟩

/-- An operation that can be offered keeps the invariant set, begun in an accepted state. -/
theorem exec_inv (hi : isOffer i = true) (huseq : s.useq = []) (hs : Ready s) (htim : TimingInv s)
    (h : exec i s = .next t) : Inv t := by
  have e := exec_effect h
  obtain ⟨hbusy, hready⟩ := exec_settled hi hs h
  have hconf : ∀ cpu max, i ≠ .timConfigure cpu max := fun cpu max he => by
    subst he
    exact absurd hi Bool.false_ne_true
  exact (inv_iff t).mpr ⟨e.useq.trans huseq, hbusy, hready, e.timingInv hconf htim⟩

end

/-- Settles O5: with the sequencer's queue empty a step waits, refuses an internal code, or runs an operation that can be offered;
each keeps the invariant set. -/
theorem everyStepKeepsTheInvariants : Obligations.EveryStepKeepsTheInvariants := by
  intro s t hinv h
  obtain ⟨huseq, hbusy, hs, htim⟩ := (inv_iff s).mp hinv
  cases hoffers : s.offers with
  | nil =>
    rw [step_of_fetch_none (fetch_nothing_offered huseq hoffers)] at h
    cases h
    exact hinv
  | cons p rest =>
    have hfetch := fetch_offer huseq hbusy hoffers
    obtain ⟨i, hdecode, hi⟩ | hdecode := decodeCommand_cases p
    · rw [step_of_decode_ok hfetch hdecode] at h
      exact exec_inv (s := accepted rest s) hi huseq (ready_accepted hs rest) htim h
    · rw [step_of_decode_error hfetch hdecode] at h
      cases h
      obtain ⟨hidle, hready⟩ := settled_respond .refused 0 (ready_accepted hs rest)
      exact (inv_iff _).mpr ⟨huseq, hidle, hready, htim⟩

end Sys2Proof.Machine
end

section
/-! The state after reset (R50) and the invariant set there. -/

namespace Sys2Proof.Machine

theorem cyclesPerUsOf_toNat (cpu : Word) : (cyclesPerUsOf cpu).toNat = cpu.toNat / 1000000 := by
  simp [cyclesPerUsOf]

/-- The two truncating divisions are those of the naturals (R154). -/
theorem halfPeriodOf_toNat (cpu hz : Word) : (halfPeriodOf cpu hz).toNat = cpu.toNat / hz.toNat / 2 := by
  simp [halfPeriodOf]

/-- Settles O1: each field is read off the reset state, the two derived timing registers through their divisions. -/
theorem resetLeavesTheSpecifiedState : Obligations.ResetLeavesTheSpecifiedState :=
  ⟨rfl, rfl, rfl, rfl, cyclesPerUsOf_toNat _, halfPeriodOf_toNat _ _, rfl, rfl, rfl, rfl, rfl, rfl, rfl, rfl⟩

theorem reset_timingInv : TimingInv State.reset :=
  ⟨BitVec.lt_def.mpr Config.initMaxFreq_pos, BitVec.lt_def.mpr Config.initMaxFreq_lt_cpuFreq, rfl⟩

theorem reset_ready : Ready State.reset := ⟨rfl, rfl, rfl, fun _ => ⟨rfl, rfl⟩⟩

/-- Settles O4: the timing registers are the admitted parameters, everything else is at its reset value. -/
theorem resetMeetsTheInvariants : Obligations.ResetMeetsTheInvariants :=
  (inv_iff State.reset).mpr ⟨rfl, rfl, reset_ready, reset_timingInv⟩

end Sys2Proof.Machine
end

section
/-! How received bits and mask bits stand in a value (R63, R65, R193). -/

namespace Sys2Proof.Machine

/-- A one shifted into place, as the model writes received bits and mask bits. -/
theorem getLsbD_one_shiftLeft {w i : Nat} (hi : i < w) (j : Nat) : (1#w <<< i).getLsbD j = decide (j = i) := by
  have htwo : (1#w <<< i).getLsbD j = (decide (i < w) && decide (i = j)) := BitVec.getLsbD_twoPow i j
  simp only [htwo, hi, decide_true, Bool.true_and, eq_comm]

theorem getLsbD_putBit {n : Nat} (hn : n < 32) (v : Word) (b : Bool) (i : Nat) :
    (putBit v n b).getLsbD i = (v.getLsbD i || (decide (i = n) && b)) := by
  cases b
  · simp [putBit]
  · rw [putBit, if_pos rfl, BitVec.getLsbD_or, getLsbD_one_shiftLeft hn, Bool.and_true]

/-- Settles O18, by induction on the bits received: each enters above the ones before it. -/
theorem receivedBitsEnterLsbFirst : Obligations.ReceivedBitsEnterLsbFirst := by
  intro f n i hn
  induction n with
  | zero => simp [received]
  | succ n ih =>
    rw [received, getLsbD_putBit hn, ih (Nat.le_of_succ_le hn)]
    by_cases hi : i = n
    · simp [hi]
    · have hlt : i < n + 1 ↔ i < n := by omega
      simp [hi, hlt]

end Sys2Proof.Machine
end

section
/-! SWJ.DRIVE in closed form (R171, R172). -/

namespace Sys2Proof.Machine

/-- Distinct positions keep the three levels of a mask apart (R65). -/
theorem getLsbD_lineMask {B : MaskBits} (hB : B.Distinct) (c d r : Bool) (k : Nat) :
    (lineMask B c d r).getLsbD k =
      if k = B.clk.val then c else if k = B.dio.val then d else if k = B.rst.val then r else false := by
  have hbit (b : Bool) (n : Fin 8) : (if b then 1#8 <<< n.val else 0).getLsbD k = (decide (k = n.val) && b) := by
    cases b
    · simp
    · rw [if_pos rfl, getLsbD_one_shiftLeft n.isLt, Bool.and_true]
  obtain ⟨hcd, hcr, hdr⟩ := hB
  rw [Ne, ← Fin.val_inj] at hcd hcr hdr
  simp only [lineMask, maskBit, BitVec.getLsbD_or, hbit]
  split_ifs with hc hd hr
  · simp [hc, hcd, hcr]
  · simp [hd, hdr, Ne.symm hcd]
  · simp [hr, Ne.symm hcr, Ne.symm hdr]
  · simp [hc, hd, hr]

/-- All three lines float, CLK first (R171). -/
theorem floatLines_eq (s : State) :
    setMode .rst .inp (setMode .dio .inp (setMode .clk .inp s)) = { s with
      mode := ⟨.inp, .inp, .inp⟩
      trace := s.trace ++ under s.phase (modeEvents s.mode.clk .clk .inp ++ modeEvents s.mode.dio .dio .inp ++
        modeEvents s.mode.rst .rst .inp) } := by
  simp [setMode_under, PerLine.set, under_append]

/-- SWJ.DRIVE answers from every state and at any mask positions (R171, R172). -/
theorem swjDrive_eq (B : MaskBits) (levels mask : Byte) (settleUs : Word) (s : State) :
    swjDrive B levels mask settleUs s = .ok { s with
      mode := ⟨.inp, .inp, .inp⟩
      lat := ⟨if lineBit B mask .clk then lineBit B levels .clk else s.lat.clk,
              if lineBit B mask .dio then lineBit B levels .dio else s.lat.dio,
              if lineBit B mask .rst && !lineBit B levels .rst then false else s.lat.rst⟩
      dly := 0
      rsp := ⟨.ok, (lineMask B (answer s 0) (answer s 1) (answer s 2)).setWidth 32, true⟩
      busy := false
      env := s.env.drop 3
      samples := s.samples + 3
      trace := s.trace ++ under s.phase (
        pushPullEvents s.mode.clk .clk (lineBit B mask .clk) (lineBit B levels .clk) ++
        pushPullEvents s.mode.dio .dio (lineBit B mask .dio) (lineBit B levels .dio) ++
        openDrainEvents s.mode.rst (lineBit B mask .rst) (lineBit B levels .rst) ++
        [.delay (settleCycles settleUs s.cyclesPerUs)] ++
        modeEvents (modeWhileDriven (lineBit B mask .clk) .out s.mode.clk) .clk .inp ++
        modeEvents (modeWhileDriven (lineBit B mask .dio) .out s.mode.dio) .dio .inp ++
        modeEvents (resetWhileDriven (lineBit B mask .rst) (lineBit B levels .rst) s.mode.rst) .rst .inp ++
        [.sample .clk (answer s 0), .sample .dio (answer s 1), .sample .rst (answer s 2)]) } := by
  simp only [swjDrive, drivePushPull_eq, driveReset_eq, floatLines_eq, bind, Except.bind, pure, Except.pure]
  simp [delay, record, pinRead, PerLine.set, respond, dropAnswers, answer, under_append, answerAt_drop, -List.drop_one]

/-- Settles O27: the closed form above, the data bits being those of the sampled mask. -/
theorem swjDriveDrivesFloatsAndSamples : Obligations.SwjDriveDrivesFloatsAndSamples := by
  intro B levels mask settleUs s hB
  have hnext := congrArg toOutcome (swjDrive_eq B levels mask settleUs s)
  refine ⟨_, _, fun k => ?_, rfl, hnext, fun h => ?_⟩
  · have hwide (m : Byte) (h : m.getLsbD k = true) : k < 32 := (BitVec.lt_of_getLsbD h).trans (by decide)
    rw [← getLsbD_lineMask hB, BitVec.getLsbD_setWidth]
    simpa using hwide _
  · subst h; exact hnext

end Sys2Proof.Machine
end

section
/-! SWJ.CLOCK_SEQUENCE in closed form (R173), and the clock cycles its events show (R107). -/

namespace Sys2Proof.Machine

/-- SWJ.CLOCK_SEQUENCE answers from every state (R68, R173). -/
theorem swjClockSequence_eq (bitCount : Word) (bytes : List Byte) (s : State) {n : Nat} (hn : seqLength bitCount bytes = n) :
    swjClockSequence bitCount bytes s = .ok { s with
      mode := ⟨.inp, .inp, s.mode.rst⟩
      lat := if n = 0 then s.lat else ⟨true, seqBit bytes (n - 1), s.lat.rst⟩
      dly := if n = 0 then s.dly else 0
      bitcnt := if n = 0 then 0 else BitVec.ofNat 6 ((n - 1) % 8 + 1)
      rsp := ⟨.ok, 0, true⟩
      busy := false
      trace := s.trace ++ under s.phase (modeEvents s.mode.clk .clk .out ++ modeEvents s.mode.dio .dio .out ++
        sequenceEvents s.halfPeriod.toNat n bytes ++ [.mode .clk .inp, .mode .dio .inp]) } := by
  simp only [swjClockSequence, hn, driveBus_eq, swjLoop_eq, bind, Except.bind, pure, Except.pure, floatBus_eq]
  simp [respond, sequenceEvents, List.range_eq_range', under_append, modeEvents_change]

/-! ### What the target sees -/

theorem newEvents_of_trace {s t : State} {p : Phase} {es : List Event} (h : t.trace = s.trace ++ under p es) :
    newEvents s t = es := by
  rw [newEvents, h, List.drop_left, map_event_under]

theorem cyclesBetween_of_trace {s t : State} {p : Phase} {es : List Event} (h : t.trace = s.trace ++ under p es) :
    cyclesBetween s t = cyclesOf s.mode.dio s.lat.dio none es :=
  congrArg (cyclesOf s.mode.dio s.lat.dio none) (newEvents_of_trace h)

section

variable {m : Mode} {d : Bool} {p : Option Bool} {es : List Event}

/-- A mode change of the clock line does not show. -/
theorem cyclesOf_modeEvents_clk (c m' : Mode) : cyclesOf m d p (modeEvents c .clk m' ++ es) = cyclesOf m d p es := by
  unfold modeEvents
  split <;> rfl

/-- After the events of `SetMode(DIO, m')` the data line is in mode `m'`, changed or not. -/
theorem cyclesOf_modeEvents_dio (m' : Mode) : cyclesOf m d p (modeEvents m .dio m' ++ es) = cyclesOf m' d p es := by
  unfold modeEvents
  split
  · next h => rw [h]; rfl
  · rfl

/-- One bit on the SWJ path is one driven cycle (R174). -/
theorem cyclesOf_swjOutEvents (h : Nat) (b : Bool) :
    cyclesOf .out d p (swjOutEvents h b ++ es) = .drive b :: cyclesOf .out b none es := rfl

/-- Bits on the SWJ path are one driven cycle each, in order, and no cycle is left over where the rest shows none. -/
theorem cyclesOf_swjOutEvents_flatMap (h : Nat) (f : Nat → Bool) (hes : ∀ d p, cyclesOf .out d p es = []) (ks : List Nat) :
    cyclesOf .out d p ((ks.flatMap fun k => swjOutEvents h (f k)) ++ es) = ks.map fun k => .drive (f k) := by
  induction ks generalizing d p with
  | nil => exact hes d p
  | cons k ks ih =>
    rw [List.flatMap_cons, List.append_assoc, cyclesOf_swjOutEvents, ih, List.map_cons]

end

/-- Settles O29: the trace is the closed form's, and only its bits show a cycle. -/
theorem swjClockSequenceOnTheWire : Obligations.SwjClockSequenceOnTheWire := by
  intro bitCount bytes s
  refine ⟨_, congrArg toOutcome (swjClockSequence_eq bitCount bytes s rfl), ?_⟩
  rw [cyclesBetween_of_trace rfl, List.append_assoc, List.append_assoc, cyclesOf_modeEvents_clk, cyclesOf_modeEvents_dio]
  exact cyclesOf_swjOutEvents_flatMap _ (seqBit bytes) (fun _ _ => rfl) _

end Sys2Proof.Machine
end

section
/-! Operations that cause no pin event (R71). -/

namespace Sys2Proof.Machine

/-- What is not permitted is refused, and nothing but the response changes (R114 (a), R286). -/
theorem exec_not_permitted {i : Instr} {s : State} (hoffer : isOffer i = true) (hnot : permitted s.owner i = false) :
    exec i s = .next (refuse s) := by
  cases i with
  | suspend | timSetClock | swjDrive | swjClockSequence | jtagAvailable => exact absurd hnot.symm Bool.false_ne_true
  | swdAcquire | swdRelease | swdRead | swdWrite | swdConfigure | swdSetClock | jtagAcquire | jtagRelease | jtagSequences
  | jtagSetClock => exact congrArg toOutcome (ownedBy_other (of_decide_eq_false hnot) _)
  | reserved01111 | unused10111 | unused11000 | unused11001 | unused11010 | unused11011 | unused11100 | unused11101
  | unused11110 | unused11111 => rfl
  | pinSetMode | pinWrite | pinRead | timConfigure | timDelay | sendBits | recvBits
  | wireRequestRead | wireRequestWrite | wireAckphaseRead | wireAckphaseWrite
  | wireAckOk | wireAckWait | wireAckFault => exact absurd hoffer Bool.false_ne_true

theorem requestedHz_eq_some {i : Instr} {hz : Word} (h : requestedHz i = some hz) :
    i = .timSetClock hz ∨ i = .swdSetClock hz ∨ i = .jtagSetClock hz := by
  unfold requestedHz at h
  split at h <;> cases h
  · exact .inl rfl
  · exact .inr (.inl rfl)
  · exact .inr (.inr rfl)

/-- No pin event happened between `s` and `t`, and the lines are as they were. -/
structure PinsKept (s t : State) : Prop where
  trace : t.trace = s.trace
  mode : t.mode = s.mode
  lat : t.lat = s.lat

theorem pinsKept_respond (st : Status) (d : Word) (s : State) : PinsKept s (respond st d s) := ⟨rfl, rfl, rfl⟩

theorem pinsKept_of_owned {o : Owner} {s t : State} {body : Except Fault State}
    (h : toOutcome (ownedBy o s body) = .next t) (hbody : body = .ok t → PinsKept s t) : PinsKept s t := by
  obtain ⟨-, hb⟩ | rfl := ownedBy_next h
  · exact hbody hb
  · exact pinsKept_respond .refused 0 s

/-- A clock request, accepted or rejected, causes no pin event (R153). -/
theorem setClock_pinsKept {hz : Word} {s t : State} (h : setClock hz s = .ok t) : PinsKept s t := by
  obtain ⟨-, he⟩ | ⟨-, -, he⟩ | ⟨-, -, he⟩ := setClock_cases hz s <;> rw [he] at h <;> cases h
  · exact pinsKept_respond .clockRejected 0 s
  · exact ⟨rfl, rfl, rfl⟩

/-- Settles O55: each operation named ends in a response, with at most the clock registers set before it. -/
theorem pinlessOperationsLeaveTheTrace : Obligations.PinlessOperationsLeaveTheTrace := by
  intro i s t h hi
  suffices hkept : PinsKept s t from ⟨hkept.trace, hkept.mode, hkept.lat⟩
  obtain ⟨trn, dph, rfl⟩ | ⟨hz, hreq⟩ | rfl | ⟨n, bs, rfl⟩ | ⟨hoffer, hnot⟩ := hi
  · refine pinsKept_of_owned h fun hb => ?_
    split at hb <;> cases hb <;> exact pinsKept_respond _ 0 s
  · obtain rfl | rfl | rfl := requestedHz_eq_some hreq
    · exact setClock_pinsKept (toOutcome_next h)
    · exact pinsKept_of_owned h setClock_pinsKept
    · exact pinsKept_of_owned h setClock_pinsKept
  · cases h
    exact pinsKept_respond .unavailable 0 s
  · refine pinsKept_of_owned h fun hb => ?_
    cases hb
    exact pinsKept_respond .ok 0 s
  · rw [exec_not_permitted hoffer hnot] at h
    cases h
    exact pinsKept_respond .refused 0 s

end Sys2Proof.Machine
end

section
/-! The trace only grows (R72): a computation that answers only appends to it, said once for a sequence of two computations and
once for each operation of the state. -/

namespace Sys2Proof.Machine

section

variable {α β : Type}

/-- If `x` answers, the trace of the state it answers is `tr` with more appended; `out` reads that state off the answer. -/
structure Grows (out : α → State) (tr : List TraceEntry) (x : Except Fault α) : Prop where
  append : ∀ a, x = .ok a → tr <+: (out a).trace

variable {out : α → State} {out' : β → State} {tr : List TraceEntry}

theorem Grows.ok {a : α} (h : tr <+: (out a).trace) : Grows out tr (.ok a) :=
  ⟨fun _ ha => Except.ok.inj ha ▸ h⟩

theorem Grows.error (f : Fault) : Grows out tr (.error f) := ⟨nofun⟩

theorem Grows.bind {x : Except Fault α} {f : α → Except Fault β} (hx : Grows out tr x)
    (hf : ∀ a, Grows out' (out a).trace (f a)) : Grows out' tr (x >>= f) := by
  refine ⟨fun b hb => ?_⟩
  obtain ⟨a, ha, hb⟩ := bind_eq_ok.mp hb
  exact (hx.append a ha).trans ((hf a).append b hb)

/-- What was appended before `x` began stays. -/
theorem Grows.after {tr' : List TraceEntry} {x : Except Fault α} (hx : Grows out tr' x) (h : tr <+: tr') :
    Grows out tr x :=
  ⟨fun a ha => h.trans (hx.append a ha)⟩

theorem Grows.ite {c : Prop} [Decidable c] {x y : Except Fault α} (hx : Grows out tr x) (hy : Grows out tr y) :
    Grows out tr (if c then x else y) := by
  split
  · exact hx
  · exact hy

/-! ### The operations of the state -/

theorem trace_prefix_record (e : Event) (s : State) : s.trace <+: (record e s).trace := List.prefix_append ..

theorem trace_prefix_delay (n : Nat) (s : State) : s.trace <+: (delay n s).trace := List.prefix_append ..

theorem Grows.after_delay {n : Nat} {s : State} {x : Except Fault α} (hx : Grows out (delay n s).trace x) :
    Grows out s.trace x :=
  hx.after (trace_prefix_delay n s)

theorem trace_prefix_setMode (L : Line) (m : Mode) (s : State) : s.trace <+: (setMode L m s).trace := by
  rw [setMode_trace]
  exact List.prefix_append ..

theorem trace_prefix_floatBus (s : State) : s.trace <+: (floatBus s).trace :=
  (trace_prefix_setMode ..).trans (trace_prefix_setMode ..)

theorem trace_prefix_driveBus (s : State) : s.trace <+: (driveBus s).trace :=
  (trace_prefix_setMode ..).trans (trace_prefix_setMode ..)

theorem grows_pinWrite (L : Line) (b : Bool) (s : State) : Grows id s.trace (pinWrite L b s) :=
  .ite (.ok (trace_prefix_record ..)) (.error _)

theorem grows_pinRead (L : Line) (s : State) : Grows Prod.snd s.trace (pinRead L s) :=
  .ite (.ok (trace_prefix_record ..)) (.error _)

theorem grows_setClock (hz : Word) (s : State) : Grows id s.trace (setClock hz s) :=
  .ite (.ok List.prefix_rfl) (.ite (.error _) (.ok List.prefix_rfl))

/-- A refusal adds nothing to the trace. -/
theorem grows_ownedBy (o : Owner) {s : State} {body : Except Fault State} (hbody : Grows id s.trace body) :
    Grows id s.trace (ownedBy o s body) :=
  .ite hbody (.ok List.prefix_rfl)

/-! ### Bits -/

theorem grows_engOutBit (b : Bool) (s : State) : Grows id s.trace (engOutBit b s) :=
  (grows_pinWrite ..).bind fun _ => (grows_pinWrite ..).bind fun _ =>
    .after_delay ((grows_pinWrite ..).bind fun _ => .ok (trace_prefix_delay ..))

theorem grows_engInBit (s : State) : Grows Prod.snd s.trace (engInBit s) :=
  (grows_pinWrite ..).bind fun _ => .after_delay
    ((grows_pinRead ..).bind fun _ => (grows_pinWrite ..).bind fun _ => .ok (trace_prefix_delay ..))

theorem grows_sendLoop (v : Word) (k : Nat) (s : State) : Grows id s.trace (sendLoop v k s) := by
  induction k generalizing s with
  | zero => exact .ok List.prefix_rfl
  | succ k ih => exact (grows_engOutBit ..).bind fun s' => ih { s' with bitcnt := s'.bitcnt + 1 }

theorem grows_recvLoop (k : Nat) (v : Word) (s : State) : Grows Prod.snd s.trace (recvLoop k v s) := by
  induction k generalizing v s with
  | zero => exact .ok List.prefix_rfl
  | succ k ih => exact (grows_engInBit s).bind fun ⟨_, s'⟩ => ih _ { s' with bitcnt := s'.bitcnt + 1 }

theorem grows_sendBits (n : Nat) (v : Word) (s : State) : Grows id s.trace (sendBits n v s) :=
  (grows_sendLoop ..).after (trace_prefix_setMode ..)

theorem grows_recvBits (n : Nat) (s : State) : Grows Prod.snd s.trace (recvBits n s) :=
  (grows_recvLoop ..).after (trace_prefix_setMode ..)

/-! ### Transactions and their pieces -/

theorem grows_openRequest (apndp rnw : Bool) (a : BitVec 2) (s : State) : Grows id s.trace (openRequest apndp rnw a s) :=
  (grows_sendBits ..).after (trace_prefix_setMode ..)

theorem grows_ackPhase (n : Nat) (s : State) : Grows id s.trace (ackPhase n s) :=
  (grows_recvBits n { s with phase := .ackPhase }).bind fun _ => .ok List.prefix_rfl

theorem grows_flush (s : State) : Grows id s.trace (flush s) :=
  (grows_sendBits flushBits 0 s).bind fun _ => .ok (trace_prefix_setMode ..)

theorem grows_ackError (s : State) : Grows id s.trace (ackError s) :=
  (grows_flush { s with phase := .errorFlush }).bind fun _ => .ok List.prefix_rfl

theorem grows_receiveData (s : State) : Grows id s.trace (receiveData s) :=
  (grows_recvBits 32 { s with phase := .dataPhase }).bind fun ⟨w, s₁⟩ =>
    (grows_recvBits 1 { s₁ with shreg := w }).bind fun _ => .ok List.prefix_rfl

theorem grows_sendData (data : Word) (s : State) : Grows id s.trace (sendData data s) :=
  (grows_sendBits 32 data { s with shreg := data, par := parity32 data, phase := .dataSend }).bind
    fun _ => grows_sendBits ..

theorem grows_trailing (s : State) : Grows id s.trace (trailing s) :=
  grows_sendBits trailBits 0 { s with phase := .trailingIdle }

theorem grows_finishRead (s : State) : Grows id s.trace (finishRead s) :=
  (grows_pinWrite ..).bind fun _ => .ite (.ok List.prefix_rfl) (.ok List.prefix_rfl)

theorem grows_swdRead (apndp : Bool) (a : BitVec 2) (s : State) : Grows id s.trace (swdRead apndp a s) :=
  (grows_openRequest ..).bind fun _ => (grows_ackPhase ..).bind fun _ =>
    .ite ((grows_receiveData _).bind fun _ => (grows_trailing _).bind fun _ => grows_finishRead _) (grows_ackError _)

theorem grows_swdWrite (apndp : Bool) (a : BitVec 2) (data : Word) (s : State) : Grows id s.trace (swdWrite apndp a data s) :=
  (grows_openRequest ..).bind fun _ => (grows_ackPhase ..).bind fun _ =>
    .ite ((grows_sendData ..).bind fun _ => (grows_trailing _).bind fun _ => .ok List.prefix_rfl) (grows_ackError _)

/-! ### Every instruction -/

theorem trace_prefix_of_next {x : Except Fault State} {t : State} (h : toOutcome x = .next t) (hx : Grows id tr x) :
    tr <+: t.trace :=
  hx.append t (toOutcome_next h)

end

/-- R72: an instruction that answers only appends to the trace. -/
theorem exec_trace_prefix {i : Instr} {s t : State} (h : exec i s = .next t) : s.trace <+: t.trace := by
  cases i with
  | suspend => cases h; exact trace_prefix_floatBus s
  | timSetClock hz => exact trace_prefix_of_next h (grows_setClock ..)
  | swjDrive levels mask settleUs =>
    cases (congrArg toOutcome (swjDrive_eq maskBits levels mask settleUs s)).symm.trans h
    exact List.prefix_append ..
  | swjClockSequence bitCount bytes =>
    cases (congrArg toOutcome (swjClockSequence_eq bitCount bytes s rfl)).symm.trans h
    exact List.prefix_append ..
  | swdAcquire => exact trace_prefix_of_next h (grows_ownedBy _ (.ok (trace_prefix_driveBus { s with owner := .swd })))
  | swdRelease | jtagRelease => exact trace_prefix_of_next h (grows_ownedBy _ (.ok (trace_prefix_floatBus s)))
  | swdRead apndp a => exact trace_prefix_of_next h (grows_ownedBy _ (grows_swdRead ..))
  | swdWrite apndp a data => exact trace_prefix_of_next h (grows_ownedBy _ (grows_swdWrite ..))
  | swdConfigure trn dph =>
    exact trace_prefix_of_next h (grows_ownedBy _ (.ite (.ok List.prefix_rfl) (.ok List.prefix_rfl)))
  | swdSetClock hz | jtagSetClock hz => exact trace_prefix_of_next h (grows_ownedBy _ (grows_setClock ..))
  | jtagAcquire | jtagSequences => exact trace_prefix_of_next h (grows_ownedBy _ (.ok List.prefix_rfl))
  | pinSetMode line mode => cases h; exact trace_prefix_setMode line mode s
  | pinWrite line level => exact trace_prefix_of_next h (grows_pinWrite ..)
  | pinRead line => exact trace_prefix_of_next h ((grows_pinRead ..).bind fun _ => .ok List.prefix_rfl)
  | timDelay n => cases h; exact trace_prefix_delay n s
  | sendBits n v => exact trace_prefix_of_next h (grows_sendBits ..)
  | recvBits n => exact trace_prefix_of_next h ((grows_recvBits ..).bind fun _ => .ok List.prefix_rfl)
  | wireRequestRead apndp a | wireRequestWrite apndp a => exact trace_prefix_of_next h (grows_openRequest ..)
  | wireAckphaseRead v | wireAckphaseWrite v =>
    exact trace_prefix_of_next h (grows_ackPhase _ { s with env := bitsOf v ++ s.env })
  | wireAckWait => exact trace_prefix_of_next h (grows_ackError { s with ack := ackWaitCode })
  | wireAckFault => exact trace_prefix_of_next h (grows_ackError { s with ack := ackFaultCode })
  | jtagAvailable | timConfigure | wireAckOk
  | reserved01111 | unused10111 | unused11000 | unused11001 | unused11010 | unused11011 | unused11100 | unused11101
  | unused11110 | unused11111 => cases h; exact List.prefix_rfl

/-- No operation touches what is still offered. -/
theorem Effect.offers {i : Instr} {s t : State} (e : Effect i s t) : t.offers = s.offers := by
  cases e with
  | kept h | configured _ _ _ h | clocked _ _ _ _ _ h | acquired _ _ _ h | freed _ _ h | transacted _ _ h | requested _ h
  | acked _ h => exact congrArg Registers.offers h

/-- Settles O59: the queues are read off the effect on the registers. -/
theorem traceOnlyGrows : Obligations.TraceOnlyGrows := by
  intro i s t h
  obtain ⟨es, htrace⟩ := exec_trace_prefix h
  have heffect := exec_effect h
  exact ⟨⟨es, htrace.symm⟩, heffect.offers, heffect.useq⟩

end Sys2Proof.Machine
end

section
/-! The decoder and the encoder agree: the operands of a micro-operation, the codes of the command port, the request byte
(R22, R91 to R96, R101, R114). -/

namespace Sys2Proof

open Machine

/-! ### Operands of a micro-operation -/

@[simp] theorem lineOfCode_lineCode (L : Line) : lineOfCode (lineCode L) = .ok L := by
  cases L <;> rfl

@[simp] theorem modeOfCode_modeCode (m : Mode) : modeOfCode (modeCode m) = .ok m := by
  cases m <;> rfl

theorem bitCountOf_eq_ok {c : BitVec 64} {n : Nat} : bitCountOf c = .ok n ↔ c.toNat = n ∧ n ≤ 32 := by
  unfold bitCountOf
  split
  · next h => exact ⟨fun hn => Except.ok.inj hn ▸ ⟨rfl, h⟩, fun ⟨hn, _⟩ => congrArg _ hn⟩
  · next h => exact ⟨nofun, fun ⟨hn, hle⟩ => absurd (hn ▸ hle) h⟩

/-- A count that fits the counter passes through its port (R38, R157). -/
theorem toNat_countPort {n : Nat} (h : n < 2 ^ 64) : (BitVec.ofNat 64 n).toNat = n := by
  rw [BitVec.toNat_ofNat, Nat.mod_eq_of_lt h]

theorem bitCountOf_ofNat {n : Nat} (h : n ≤ 32) : bitCountOf (BitVec.ofNat 64 n) = .ok n :=
  bitCountOf_eq_ok.mpr ⟨toNat_countPort (by omega), h⟩

/-- A value of `n` bits is its own low `n` bits (R192). -/
theorem lowBits_of_lt {n : Nat} {v : Word} (h : v.toNat < 2 ^ n) : lowBits n v = v := by
  rw [lowBits, Nat.mod_eq_of_lt h, BitVec.ofNat_toNat, BitVec.setWidth_eq]

theorem lowBits_lt (n : Nat) (v : Word) : (lowBits n v).toNat < 2 ^ n :=
  calc (lowBits n v).toNat ≤ v.toNat % 2 ^ n := by rw [lowBits, BitVec.toNat_ofNat]; exact Nat.mod_le ..
    _ < 2 ^ n := Nat.mod_lt _ (Nat.two_pow_pos n)

/-! ### The request byte -/

/-- Settles O14: sixteen requests, eight bits each. -/
theorem requestByteLayout : Obligations.RequestByteLayout := by
  unfold Obligations.RequestByteLayout
  decide

theorem decodeRequest_makeRequest (apndp rnw : Bool) (a : BitVec 2) :
    decodeRequest (makeRequest apndp rnw a) =
      .ok (if rnw then .wireRequestRead apndp a else .wireRequestWrite apndp a) := by
  revert apndp rnw a
  decide

/-- A byte of the shape and parity of a request is the request of its own operand bits (R94, R95). -/
theorem eq_makeRequest {b : BitVec 8} (hshape : (b.getLsbD 0 && !b.getLsbD 6 && b.getLsbD 7) = true)
    (hparity : b.getLsbD 5 = requestParity (b.getLsbD 1) (b.getLsbD 2) (b.extractLsb' 3 2)) :
    b = makeRequest (b.getLsbD 1) (b.getLsbD 2) (b.extractLsb' 3 2) := by
  obtain ⟨h0, h1, h2, h3, h4, h5, h6, h7⟩ :=
    requestByteLayout (b.getLsbD 1) (b.getLsbD 2) (b.extractLsb' 3 2)
  simp only [Bool.and_eq_true, Bool.not_eq_true'] at hshape
  obtain ⟨⟨hstart, hstop⟩, hpark⟩ := hshape
  refine BitVec.eq_of_getLsbD_eq fun k hk => ?_
  interval_cases k
  · rw [h0, hstart]
  · rw [h1]
  · rw [h2]
  · rw [h3]; simp
  · rw [h4]; simp
  · rw [h5, hparity]; simp [requestParity]
  · rw [h6, hstop]
  · rw [h7, hpark]

/-- A byte decodes when it is a request, and to that request (R94 to R96, R114 (g)). -/
theorem decodeRequest_eq_ok {b : BitVec 8} {i : Instr} : decodeRequest b = .ok i ↔
    ∃ apndp rnw a, b = makeRequest apndp rnw a ∧
      i = if rnw then .wireRequestRead apndp a else .wireRequestWrite apndp a := by
  constructor
  · intro h
    unfold decodeRequest at h
    dsimp only at h
    split at h
    · next hshape =>
      split at h
      · next hparity =>
        refine ⟨_, _, _, eq_makeRequest hshape hparity, ?_⟩
        split at h <;> cases h
        · next hrnw => exact (if_pos hrnw).symm
        · next hrnw => exact (if_neg hrnw).symm
      · cases h
    · cases h
  · rintro ⟨apndp, rnw, a, rfl, rfl⟩
    exact decodeRequest_makeRequest apndp rnw a

/-- Settles O12: the direction of the request says which of the two instructions it is. -/
theorem requestBytesHaveOneMeaning : Obligations.RequestBytesHaveOneMeaning := by
  intro b i
  refine decodeRequest_eq_ok.trans ⟨?_, ?_⟩
  · rintro ⟨apndp, _ | _, a, hb, hi⟩
    · exact ⟨apndp, a, .inr ⟨hi, hb⟩⟩
    · exact ⟨apndp, a, .inl ⟨hi, hb⟩⟩
  · rintro ⟨apndp, a, ⟨hi, hb⟩ | ⟨hi, hb⟩⟩
    · exact ⟨apndp, true, a, hb, hi⟩
    · exact ⟨apndp, false, a, hb, hi⟩

/-! ### Every instruction -/

/-- Settles O9: the operands of a micro-operation and of a request come back by the lemmas above, those that are bit vectors
of their port's width as they stand. -/
theorem decodeOfEncodeIsTheOperation : Obligations.DecodeOfEncodeIsTheOperation := by
  intro i h
  cases i with
  | pinSetMode L m => simp [encode, decode, decodeInternal, decodeMicro]
  | pinWrite L b => simp [encode, decode, decodeInternal, decodeMicro]
  | pinRead L => simp [encode, decode, decodeInternal, decodeMicro]
  | timDelay n =>
    have hn : n < 2 ^ 64 := of_decide_eq_true h
    simp [encode, decode, decodeInternal, decodeMicro, toNat_countPort hn]
  | sendBits n v =>
    obtain ⟨hn, hv⟩ : n ≤ 32 ∧ v.toNat < 2 ^ n := by simpa [WellFormed, wellFormed] using h
    simp [encode, decode, decodeInternal, decodeMicro, bitCountOf_ofNat hn, lowBits_of_lt hv]
  | recvBits n =>
    have hn : n ≤ 32 := of_decide_eq_true h
    simp [encode, decode, decodeInternal, decodeMicro, bitCountOf_ofNat hn]
  | wireRequestRead apndp a => exact decodeRequest_makeRequest apndp true a
  | wireRequestWrite apndp a => exact decodeRequest_makeRequest apndp false a
  | suspend | timSetClock | swjDrive | swjClockSequence | swdAcquire | swdRelease | swdRead | swdWrite | swdConfigure
  | swdSetClock | jtagAvailable | jtagAcquire | jtagRelease | jtagSequences | jtagSetClock | timConfigure
  | reserved01111 | unused10111 | unused11000 | unused11001 | unused11010 | unused11011 | unused11100 | unused11101
  | unused11110 | unused11111 | wireAckphaseRead | wireAckphaseWrite | wireAckOk | wireAckWait | wireAckFault => rfl

/-- What the command port can carry has operands of its ports' widths. -/
theorem wellFormed_of_isOffer {i : Instr} (h : isOffer i = true) : WellFormed i := by
  cases i with
  | timDelay | sendBits | recvBits => exact absurd h Bool.false_ne_true
  | _ => rfl

theorem wellFormed_of_decodeMicro {m : MicroPort} {i : Instr} (h : decodeMicro m = .ok i) : WellFormed i := by
  unfold decodeMicro at h
  split at h
  case h_1 =>
    split at h
    · cases h
    · split at h <;> cases h
      rfl
  case h_2 | h_3 => split at h <;> cases h; rfl
  case h_4 => cases h; rfl
  case h_5 => cases h; exact decide_eq_true m.count.isLt
  case h_6 =>
    split at h
    · cases h
    · next n hn =>
      cases h
      simp [WellFormed, wellFormed, lowBits_lt, (bitCountOf_eq_ok.mp hn).2]
  case h_7 =>
    split at h
    · cases h
    · next n hn =>
      cases h
      exact decide_eq_true (bitCountOf_eq_ok.mp hn).2
  case h_8 => cases h

theorem wellFormed_of_decodeRequest {b : BitVec 8} {i : Instr} (h : decodeRequest b = .ok i) : WellFormed i := by
  obtain ⟨apndp, rnw, a, -, rfl⟩ := decodeRequest_eq_ok.mp h
  cases rnw <;> rfl

theorem decodeAck_eq_ok {c : BitVec 3} {i : Instr} (h : decodeAck c = .ok i) :
    i = .wireAckOk ∨ i = .wireAckWait ∨ i = .wireAckFault := by
  unfold decodeAck at h
  split at h
  · cases h; exact .inl rfl
  · split at h
    · cases h; exact .inr (.inl rfl)
    · split at h <;> cases h
      exact .inr (.inr rfl)

/-- Settles O10, by the way the frame reaches the block: the ranges of R192 and R193 are those the decoder lets through. -/
theorem decodedOperationsAreWellFormed : Obligations.DecodedOperationsAreWellFormed := by
  intro f i h
  match f with
  | .command p =>
    obtain ⟨j, hj, hoffer⟩ | herr := decodeCommand_cases p
    · rw [h] at hj
      cases hj
      exact wellFormed_of_isOffer hoffer
    · rw [h] at herr
      cases herr
  | .internal (.micro m) => exact wellFormed_of_decodeMicro h
  | .internal (.request b) => exact wellFormed_of_decodeRequest h
  | .internal (.ackRead v) | .internal (.ackWrite v) => cases h; rfl
  | .internal (.ack c) => obtain rfl | rfl | rfl := decodeAck_eq_ok h <;> rfl

/-- Settles O13: each word is decoded. -/
theorem sampleWordsDecode : Obligations.SampleWordsDecode := by
  unfold Obligations.SampleWordsDecode
  decide

/-! ### The codes of the command port -/

/-- The 32 codes of the command port: fifteen operations, ten codes that name none, seven internal codes (R92, R114). -/
theorem decodeCommand_class (p : CmdPort) :
    (p.op.toNat < 15 ∧ ∃ i, decode (.command p) = .ok i ∧ isExternal i = true) ∨
    ((p.op.toNat = 15 ∨ 23 ≤ p.op.toNat) ∧ ∃ i, decode (.command p) = .ok i ∧ namesNoOperation i = true) ∨
    (16 ≤ p.op.toNat ∧ p.op.toNat ≤ 22 ∧ decode (.command p) = .error .internalOnCommandPort) := by
  have hlt := p.op.isLt
  simp only [decode, decodeCommand]
  split
  case h_26 => exact .inr (.inr ⟨by grind, by grind, rfl⟩)
  case h_16 | h_17 | h_18 | h_19 | h_20 | h_21 | h_22 | h_23 | h_24 | h_25 =>
    exact .inr (.inl ⟨by omega, _, rfl, rfl⟩)
  all_goals exact .inl ⟨by omega, _, rfl, rfl⟩

/-- Settles O11: the three ranges of codes exclude each other. -/
theorem commandCodesSplitAsTheTableSays : Obligations.CommandCodesSplitAsTheTableSays := by
  intro p
  obtain ⟨hop, hi⟩ | ⟨hop, hi⟩ | ⟨hlo, hhi, herr⟩ := decodeCommand_class p
  · exact ⟨fun _ => hi, fun _ => by omega, fun _ => by omega⟩
  · exact ⟨fun _ => by omega, fun _ => hi, fun _ => by omega⟩
  · exact ⟨fun _ => by omega, fun _ => by omega, fun _ => herr⟩

/-- Settles O8: the offer is taken, the internal code does not decode, and the port answers `Refused` (R114 (b)). -/
theorem internalCodesAreRefusedOnTheCommandPort : Obligations.InternalCodesAreRefusedOnTheCommandPort := by
  intro s p rest huseq hbusy hoffers hlo hhi
  have herr := (commandCodesSplitAsTheTableSays p).2.2 ⟨hlo, hhi⟩
  exact step_of_decode_error (fetch_offer huseq hbusy hoffers) herr

end Sys2Proof
end

section
/-! The flags: the parity of a word and the ACK code (R98, R100, R104), the status codes (R112). -/

namespace Sys2Proof.Machine

theorem popcountUpTo_eq_countP (w : Word) (n : Nat) :
    popcountUpTo w n = (List.range n).countP fun i => w.getLsbD i := by
  induction n with
  | zero => rfl
  | succ n ih =>
    rw [popcountUpTo, ih, List.range_succ, List.countP_append, List.countP_singleton]
    cases w.getLsbD n <;> rfl

/-- Settles O16: the model's count is that of the indices whose bit is set. -/
theorem parityIsPopulationCountModTwo : Obligations.ParityIsPopulationCountModTwo := by
  intro w
  rw [parity32, popcount, popcountUpTo_eq_countP]

theorem getLsbD_ackOf (v : Word) {k : Nat} (hk : k < 3) : (ackOf v).getLsbD k = v.getLsbD (k + 1) := by
  simp [ackOf, hk, Nat.add_comm]

/-- Settles O19: the ACK code is cut out of the value whose bits are the samples (R63, R100). -/
theorem ackCodeIsBitsOneToThree : Obligations.AckCodeIsBitsOneToThree := by
  intro f n k hn hk
  have hlt : k + 1 < n := by omega
  rw [getLsbD_ackOf _ hk, receivedBitsEnterLsbFirst f n (k + 1) (by omega), decide_eq_true hlt, Bool.true_and]

/-- Settles O15: the code is the table's, row by row. -/
theorem statusCodesAreTheTables : Obligations.StatusCodesAreTheTables := by
  unfold Obligations.StatusCodesAreTheTables
  decide

end Sys2Proof.Machine
end

section
/-! Refusals (R114 (a), R286). -/

namespace Sys2Proof.Machine

theorem permitted_of_namesNoOperation {i : Instr} (o : Owner) (h : namesNoOperation i = true) :
    permitted o i = false := by
  cases i with
  | reserved01111 | unused10111 | unused11000 | unused11001 | unused11010 | unused11011 | unused11100 | unused11101
  | unused11110 | unused11111 => rfl
  | _ => exact absurd h Bool.false_ne_true

/-- Settles O52: both kinds can be offered, and neither is permitted. -/
theorem whatIsNotPermittedIsRefused : Obligations.WhatIsNotPermittedIsRefused := by
  refine ⟨fun i s h => ?_, fun i s h hnot => ?_⟩
  · exact exec_not_permitted (Bool.or_eq_true_iff.mpr (.inr h)) (permitted_of_namesNoOperation s.owner h)
  · exact exec_not_permitted (Bool.or_eq_true_iff.mpr (.inl h)) hnot

end Sys2Proof.Machine
end

section
/-! The wire frames: each is a piece of a transaction (R94 to R101, R200 to R204). -/

namespace Sys2Proof.Machine

/-! ### The request -/

/-- Settles O47: the frame is the opening of a transaction, of either direction. -/
theorem wireRequestSendsTheByte : Obligations.WireRequestSendsTheByte := by
  intro apndp rnw a s
  have hopen := congrArg toOutcome (openRequest_eq apndp rnw a s)
  cases rnw <;> exact hopen

/-! ### The ACK phase -/

theorem received_congr {f g : Nat → Bool} {n : Nat} (h : ∀ i < n, f i = g i) : received f n = received g n := by
  induction n with
  | zero => rfl
  | succ n ih => rw [received, received, ih fun i hi => h i (Nat.lt_succ_of_lt hi), h n n.lt_succ_self]

theorem recvEvents_congr {f g : Nat → Bool} {n : Nat} (halfPeriod : Nat) (h : ∀ i < n, f i = g i) :
    recvEvents halfPeriod n f = recvEvents halfPeriod n g :=
  List.flatMap_congr fun i hi => by rw [h i (List.mem_range.mp hi)]

/-- A value received bit by bit is the value, zero-extended (R63, R193). -/
theorem received_getLsbD {n : Nat} (v : BitVec n) (hn : n ≤ 32) : received v.getLsbD n = v.setWidth 32 := by
  refine BitVec.eq_of_getLsbD_eq fun i hi => ?_
  rw [receivedBitsEnterLsbFirst _ n i hn, BitVec.getLsbD_setWidth, decide_eq_true hi]
  by_cases h : i < n
  · rw [decide_eq_true h]
  · rw [BitVec.getLsbD_of_ge v i (Nat.not_lt.mp h), Bool.and_false, Bool.and_false]

/-- The ACK code of a value that fits its path (R100). -/
theorem ackOf_setWidth {n : Nat} (v : BitVec n) : ackOf (v.setWidth 32) = v.extractLsb' 1 3 := by
  refine BitVec.eq_of_getLsbD_eq fun k hk => ?_
  rw [getLsbD_ackOf _ hk, BitVec.getLsbD_setWidth, BitVec.getLsbD_extractLsb', decide_eq_true hk, Nat.add_comm 1,
    decide_eq_true (by omega : k + 1 < 32)]

@[simp] theorem length_bitsOf {n : Nat} (v : BitVec n) : (bitsOf v).length = n := by
  simp [bitsOf]

/-- The environment scripted with the bits of `v` answers them, first bit first. -/
theorem answer_bitsOf {n : Nat} (v : BitVec n) (s : State) {i : Nat} (hi : i < n) :
    answer { s with env := bitsOf v ++ s.env } i = v.getLsbD i := by
  rw [answer_scripted rfl (by simpa using hi)]
  simp [bitsOf]

/-- An ACK phase scripted with `v` receives `v` (R98, R100). -/
theorem ackPhase_scripted {n : Nat} (v : BitVec n) {s : State} (hc : s.mode.clk = .out) (h0 : 0 < n) (hn : n ≤ 32) :
    ackPhase n { s with env := bitsOf v ++ s.env } = .ok { s with
      mode := ⟨.out, .inp, s.mode.rst⟩
      lat := ⟨true, s.lat.dio, s.lat.rst⟩
      dly := 0
      bitcnt := BitVec.ofNat 6 n
      phase := .ackPhase
      ack := v.extractLsb' 1 3
      shreg := v.setWidth 32
      samples := s.samples + n
      trace := s.trace ++ under .ackPhase (modeEvents s.mode.dio .dio .inp ++
        recvEvents s.halfPeriod.toNat n v.getLsbD) } := by
  have hv (i : Nat) (hi : i < n) : answer { s with env := bitsOf v ++ s.env } i = v.getLsbD i := answer_bitsOf v s hi
  rw [ackPhase_eq (s := { s with env := bitsOf v ++ s.env }) hc h0 hn, received_congr hv, recvEvents_congr _ hv,
    received_getLsbD v hn, ackOf_setWidth v]
  simp [PerLine.set, hc]

theorem ackPhase_misuse {n : Nat} {s : State} (hc : s.mode.clk ≠ .out) (h0 : 0 < n) :
    ackPhase n s = .error .pinModeMisuse := by
  rw [ackPhase, recvBits_misuse (s := { s with phase := .ackPhase }) hc h0]
  rfl

/-- Settles O48: the frame is an ACK phase whose samples are the bits of `v`. -/
theorem wireAckPhaseExtractsTheCode : Obligations.WireAckPhaseExtractsTheCode := by
  refine ⟨fun v s hc => ?_, fun v s hc => ?_, fun v w s hc => ⟨?_, ?_⟩⟩
  · exact congrArg toOutcome (ackPhase_scripted v hc (by decide) (by decide))
  · exact congrArg toOutcome (ackPhase_scripted v hc (by decide) (by decide))
  · exact congrArg toOutcome (ackPhase_misuse (n := 4) (s := { s with env := bitsOf v ++ s.env }) hc (by decide))
  · exact congrArg toOutcome (ackPhase_misuse (n := 5) (s := { s with env := bitsOf w ++ s.env }) hc (by decide))

/-! ### The ACK code -/

/-- Settles O49: the direction is the RnW bit of the request. -/
theorem wireAckOkLeadsToTheDataPhase : Obligations.WireAckOkLeadsToTheDataPhase := fun _ => rfl

theorem ackError_misuse {s : State} (hc : s.mode.clk ≠ .out) : ackError s = .error .pinModeMisuse := by
  rw [ackError, flush, sendBits_misuse (s := { s with phase := .errorFlush }) 0 hc (by decide)]
  rfl

/-- The flush and the error response, CLK being driven, under the code `c` (R202). -/
theorem ackError_code (c : BitVec 3) {s : State} (hc : s.mode.clk = .out) :
    ackError { s with ack := c } = .ok { s with
      mode := ⟨.out, .inp, s.mode.rst⟩
      lat := ⟨true, false, s.lat.rst⟩
      dly := 0
      bitcnt := 4
      phase := .idle
      ack := c
      rsp := ⟨ackErrorStatus c, 0, true⟩
      busy := false
      trace := s.trace ++ under .errorFlush (modeEvents s.mode.dio .dio .out ++
        sendEvents s.halfPeriod.toNat 4 0 ++ [.mode .dio .inp]) } := by
  rw [ackError_eq (s := { s with ack := c }) hc]
  simp [PerLine.set, hc]

theorem fetch_internal {f : SeqFrame} {rest : List SeqFrame} {s : State} (h : s.useq = f :: rest) :
    fetch s = some (.internal f, { s with useq := rest }) := by
  simp only [fetch, h]

/-- An ACK code other than OK, issued as the next frame, ends the transaction in the error it stands for, named by a row of
the table or not (R101, R202). -/
theorem step_ack_error {c : BitVec 3} {rest : List SeqFrame} {s : State} (hok : c ≠ ackOkCode)
    (h : s.useq = .ack c :: rest) :
    step s = toOutcome (ackError { s with useq := rest, ack := c }) := by
  have hfetch := fetch_internal h
  by_cases hwait : c = ackWaitCode
  · subst hwait
    rw [step_of_decode_ok (i := .wireAckWait) hfetch rfl]
    rfl
  by_cases hfault : c = ackFaultCode
  · subst hfault
    rw [step_of_decode_ok (i := .wireAckFault) hfetch rfl]
    rfl
  · have hdecode : decode (.internal (.ack c)) = .error (.ackNoResponse c) := by
      simp only [decode, decodeInternal, decodeAck, if_neg hok, if_neg hwait, if_neg hfault]
    rw [step_of_decode_error hfetch hdecode]
    rfl

/-- Settles O50: WAIT, FAULT and the codes of no row all take the same flush. -/
theorem wireAckErrorsFlush : Obligations.WireAckErrorsFlush := by
  refine ⟨fun wait s hc => ?_, fun c s rest hok hwait hfault h hc => ?_,
    fun s hc => ⟨?_, ?_, fun c rest hok _ _ h => ?_⟩⟩
  · cases wait
    · exact congrArg toOutcome (ackError_code ackFaultCode hc)
    · exact congrArg toOutcome (ackError_code ackWaitCode hc)
  · have hstatus : ackErrorStatus c = .ackNoResponse := (if_neg hwait).trans (if_neg hfault)
    rw [step_ack_error hok h, ← hstatus]
    exact congrArg toOutcome (ackError_code c (s := { s with useq := rest }) hc)
  · exact congrArg toOutcome (ackError_misuse (s := { s with ack := ackWaitCode }) hc)
  · exact congrArg toOutcome (ackError_misuse (s := { s with ack := ackFaultCode }) hc)
  · rw [step_ack_error hok h]
    exact congrArg toOutcome (ackError_misuse (s := { s with useq := rest, ack := c }) hc)

end Sys2Proof.Machine
end

section
/-! Transactions up to their ACK (R98, R100, R201, R204), and a failed one as its wire frames (R107, R202). -/

namespace Sys2Proof.Machine

/-- The ACK code cut out of the samples of an ACK phase, on either path, is the one received (R98, R100). -/
theorem ackOf_received {n : Nat} (s : State) (hn : n = 4 ∨ n = 5) : ackOf (received (answer s) n) = ackReceived s := by
  refine BitVec.eq_of_getLsbD_eq fun k hk => ?_
  rw [ackCodeIsBitsOneToThree (answer s) n k hn hk]
  simp only [ackReceived, BitVec.getLsbD_append, BitVec.getLsbD_ofBool]
  interval_cases k <;> rfl

section

variable {n : Nat} (apndp rnw : Bool) (a : BitVec 2) (s : State)

/-- A transaction begun in `s` has sent its request (R94, R201, R204). -/
def requested : State :=
  { s with
    mode := ⟨.out, .out, s.mode.rst⟩
    lat := ⟨true, true, s.lat.rst⟩
    dly := 0
    bitcnt := 8
    phase := .requestSent
    req := makeRequest apndp rnw a
    trace := s.trace ++ under s.phase (modeEvents s.mode.clk .clk .out) ++
      under .requestSent (modeEvents s.mode.dio .dio .out ++
        sendEvents s.halfPeriod.toNat 8 ((makeRequest apndp rnw a).setWidth 32)) }

/-- A transaction begun in `s` has received its ACK, in a phase of `n` bits (R98, R100). -/
def acknowledged (n : Nat) : State :=
  { requested apndp rnw a s with
    mode := ⟨.out, .inp, s.mode.rst⟩
    bitcnt := BitVec.ofNat 6 n
    phase := .ackPhase
    ack := ackReceived s
    shreg := received (answer s) n
    env := s.env.drop n
    samples := s.samples + n
    trace := (requested apndp rnw a s).trace ++
      under .ackPhase (.mode .dio .inp :: recvEvents s.halfPeriod.toNat n (answer s)) }

theorem openRequest_requested : openRequest apndp rnw a s = .ok (requested apndp rnw a s) :=
  openRequest_eq apndp rnw a s

theorem ackPhase_requested (hn : n = 4 ∨ n = 5) :
    ackPhase n (requested apndp rnw a s) = .ok (acknowledged apndp rnw a s n) := by
  refine (ackPhase_eq rfl (by omega) (by omega)).trans ?_
  rw [acknowledged, ← ackOf_received s hn]
  rfl

/-- An ACK phase scripted with what the environment would answer anyway receives the same. -/
theorem ackPhase_requested_scripted (hn : n = 4 ∨ n = 5) {v : BitVec n} (hv : ∀ i < n, v.getLsbD i = answer s i) :
    ackPhase n { requested apndp rnw a s with env := bitsOf v ++ s.env.drop n } =
      .ok (acknowledged apndp rnw a s n) := by
  have hshreg : v.setWidth 32 = received (answer s) n := by rw [← received_getLsbD v (by omega), received_congr hv]
  have hack : v.extractLsb' 1 3 = ackReceived s := by rw [← ackOf_setWidth, hshreg, ackOf_received s hn]
  have hscripted := ackPhase_scripted v (s := { requested apndp rnw a s with env := s.env.drop n }) rfl (by omega) (by omega)
  refine hscripted.trans ?_
  rw [hshreg, hack, recvEvents_congr _ hv]
  rfl

end

theorem ok_bind {α β : Type} (a : α) (f : α → Except Fault β) : (Except.ok a >>= f) = f a := rfl

/-- A read is its request and its ACK phase, then what the ACK decides (R201). -/
theorem swdRead_eq (apndp : Bool) (a : BitVec 2) (s : State) : swdRead apndp a s =
    if ackReceived s = ackOkCode then
      receiveData (acknowledged apndp true a s 4) >>= fun t => trailing t >>= finishRead
    else ackError (acknowledged apndp true a s 4) := by
  rw [swdRead, openRequest_requested, ok_bind, ackPhase_requested (n := ackReadClocks) _ _ _ _ (.inl rfl), ok_bind]
  rfl

/-- A write is its request and its ACK phase, then what the ACK decides (R204). -/
theorem swdWrite_eq (apndp : Bool) (a : BitVec 2) (data : Word) (s : State) : swdWrite apndp a data s =
    if ackReceived s = ackOkCode then
      sendData data (acknowledged apndp false a s 5) >>= fun t => trailing t >>= fun t =>
        pure (respond .ok 0 { t with phase := .idle })
    else ackError (acknowledged apndp false a s 5) := by
  rw [swdWrite, openRequest_requested, ok_bind, ackPhase_requested (n := ackWriteClocks) _ _ _ _ (.inr rfl), ok_bind]
  rfl

section

variable {apndp : Bool} {a : BitVec 2} {data : Word} {s : State}

/-- The holder's read is performed (R201, R286). -/
theorem exec_swdRead (h : s.owner = .swd) : exec (.swdRead apndp a) s = toOutcome (swdRead apndp a s) :=
  congrArg toOutcome (ownedBy_holder h _)

/-- The holder's write is performed (R204, R286). -/
theorem exec_swdWrite (h : s.owner = .swd) : exec (.swdWrite apndp a data) s = toOutcome (swdWrite apndp a data s) :=
  congrArg toOutcome (ownedBy_holder h _)

theorem exec_swdRead_error (h : s.owner = .swd) (hack : ackReceived s ≠ ackOkCode) :
    exec (.swdRead apndp a) s = toOutcome (ackError (acknowledged apndp true a s 4)) := by
  rw [exec_swdRead h, swdRead_eq, if_neg hack]

theorem exec_swdWrite_error (h : s.owner = .swd) (hack : ackReceived s ≠ ackOkCode) :
    exec (.swdWrite apndp a data) s = toOutcome (ackError (acknowledged apndp false a s 5)) := by
  rw [exec_swdWrite h, swdWrite_eq, if_neg hack]

end

/-- The ACK code received, issued as the next frame, ends the transaction that received it; so does the frame of its
name. -/
theorem ack_frames {c : BitVec 3} {s : State} (hc : s.ack = c) (hok : c ≠ ackOkCode) :
    step { s with useq := .ack c :: s.useq } = toOutcome (ackError s) ∧
    (c = ackWaitCode → exec .wireAckWait s = toOutcome (ackError s)) ∧
    (c = ackFaultCode → exec .wireAckFault s = toOutcome (ackError s)) := by
  subst hc
  refine ⟨step_ack_error hok rfl, fun h => ?_, fun h => ?_⟩
  · change toOutcome (ackError { s with ack := ackWaitCode }) = _
    rw [← h]
  · change toOutcome (ackError { s with ack := ackFaultCode }) = _
    rw [← h]

/-- Settles O51: the frames reach the state in which the transaction has its ACK, and the ACK code ends it from there. -/
theorem anErrorTransactionIsItsFrames : Obligations.AnErrorTransactionIsItsFrames := by
  intro apndp a data v w s howner hack
  refine ⟨fun hv => ⟨requested apndp true a s, acknowledged apndp true a s 4, ?_, ?_, ?_⟩,
    fun hw => ⟨requested apndp false a s, acknowledged apndp false a s 5, ?_, ?_, ?_⟩⟩
  · exact congrArg toOutcome (openRequest_requested ..)
  · exact congrArg toOutcome (ackPhase_requested_scripted apndp true a s (.inl rfl) hv)
  · rw [exec_swdRead_error howner hack]
    exact ack_frames rfl hack
  · exact congrArg toOutcome (openRequest_requested ..)
  · exact congrArg toOutcome (ackPhase_requested_scripted apndp false a s (.inr rfl) hw)
  · rw [exec_swdWrite_error howner hack]
    exact ack_frames rfl hack

end Sys2Proof.Machine
end

section
/-! How a transaction ends (R201 to R204), in closed form, and the response it gives. -/

namespace Sys2Proof.Machine

section

variable (apndp rnw : Bool) (a : BitVec 2) (data : Word) (s : State)

/-- A read begun in `s` has ended, its ACK being OK (R201, R203). -/
def readEnded : State :=
  { acknowledged apndp true a s 4 with
    mode := ⟨.out, .out, s.mode.rst⟩
    lat := ⟨true, false, s.lat.rst⟩
    bitcnt := 8
    phase := .idle
    shreg := wordReceived s
    par := parityReceived s
    rsp := if parityReceived s = parity32 (wordReceived s) then ⟨.ok, wordReceived s, true⟩ else ⟨.badParity, 0, true⟩
    busy := false
    env := (acknowledged apndp true a s 4).env.drop 33
    samples := (acknowledged apndp true a s 4).samples + 33
    trace := (acknowledged apndp true a s 4).trace ++
      under .dataPhase (recvEvents s.halfPeriod.toNat 33 (answersFrom s 4)) ++
      under .trailingIdle (.mode .dio .out :: sendEvents s.halfPeriod.toNat 8 0) ++
      under .trailingIdle [.write .dio false] }

/-- A write begun in `s` has ended, its ACK being OK (R204). -/
def writeEnded : State :=
  { acknowledged apndp false a s 5 with
    mode := ⟨.out, .out, s.mode.rst⟩
    lat := ⟨true, false, s.lat.rst⟩
    bitcnt := 8
    phase := .idle
    shreg := data
    par := parity32 data
    rsp := ⟨.ok, 0, true⟩
    busy := false
    trace := (acknowledged apndp false a s 5).trace ++
      under .dataSend (.mode .dio .out :: sendEvents s.halfPeriod.toNat 32 data ++
        engOutEvents s.halfPeriod.toNat (parity32 data)) ++
      under .trailingIdle (sendEvents s.halfPeriod.toNat 8 0) }

/-- A transaction begun in `s` has ended after an ACK phase of `n` bits, its ACK not being OK (R202). -/
def errorEnded (n : Nat) : State :=
  { acknowledged apndp rnw a s n with
    lat := ⟨true, false, s.lat.rst⟩
    bitcnt := 4
    phase := .idle
    rsp := ⟨ackErrorStatus (ackReceived s), 0, true⟩
    busy := false
    trace := (acknowledged apndp rnw a s n).trace ++
      under .errorFlush (.mode .dio .out :: sendEvents s.halfPeriod.toNat 4 0 ++ [.mode .dio .inp]) }

/-- The answers after the ACK phase are those after the first `n` (R37). -/
theorem answer_acknowledged (n : Nat) : answer (acknowledged apndp rnw a s n) = answersFrom s n :=
  funext (answerAt_drop s.env s.samples n)

theorem ackError_acknowledged (n : Nat) :
    ackError (acknowledged apndp rnw a s n) = .ok (errorEnded apndp rnw a s n) :=
  ackError_eq rfl

variable {apndp a data s}

theorem swdRead_ackOk (hack : ackReceived s = ackOkCode) : swdRead apndp a s = .ok (readEnded apndp a s) := by
  rw [swdRead_eq, if_pos hack, receiveData_eq rfl, ok_bind, trailing_eq rfl, ok_bind, finishRead_eq rfl,
    answer_acknowledged]
  rfl

theorem swdRead_ackError (hack : ackReceived s ≠ ackOkCode) :
    swdRead apndp a s = .ok (errorEnded apndp true a s 4) := by
  rw [swdRead_eq, if_neg hack, ackError_acknowledged]

theorem swdWrite_ackOk (hack : ackReceived s = ackOkCode) :
    swdWrite apndp a data s = .ok (writeEnded apndp a data s) := by
  rw [swdWrite_eq, if_pos hack, sendData_eq data rfl, ok_bind, trailing_eq rfl, ok_bind]
  rfl

theorem swdWrite_ackError (hack : ackReceived s ≠ ackOkCode) :
    swdWrite apndp a data s = .ok (errorEnded apndp false a s 5) := by
  rw [swdWrite_eq, if_neg hack, ackError_acknowledged]

/-- The response to a read is decided by its answers from the second on (R100, R201 to R203). -/
def readResponse (s : State) : Rsp :=
  if ackReceived s = ackOkCode then
    if parityReceived s = parity32 (wordReceived s) then ⟨.ok, wordReceived s, true⟩ else ⟨.badParity, 0, true⟩
  else ⟨ackErrorStatus (ackReceived s), 0, true⟩

/-- The response to a write is decided by its ACK (R202, R204). -/
def writeResponse (s : State) : Rsp :=
  if ackReceived s = ackOkCode then ⟨.ok, 0, true⟩ else ⟨ackErrorStatus (ackReceived s), 0, true⟩

theorem exec_swdRead_rsp {t : State} (howner : s.owner = .swd) (h : exec (.swdRead apndp a) s = .next t) :
    t.rsp = readResponse s := by
  rw [exec_swdRead howner] at h
  unfold readResponse
  split
  · next hack => rw [swdRead_ackOk hack] at h; cases h; rfl
  · next hack => rw [swdRead_ackError hack] at h; cases h; rfl

theorem exec_swdWrite_rsp {t : State} (howner : s.owner = .swd) (h : exec (.swdWrite apndp a data) s = .next t) :
    t.rsp = writeResponse s := by
  rw [exec_swdWrite howner] at h
  unfold writeResponse
  split
  · next hack => rw [swdWrite_ackOk hack] at h; cases h; rfl
  · next hack => rw [swdWrite_ackError hack] at h; cases h; rfl

theorem ackReceived_congr {u : State} (h : ∀ k, k ≠ 0 → k ≠ 4 → answer s k = answer u k) :
    ackReceived s = ackReceived u := by
  rw [ackReceived, h 3 (by decide) (by decide), h 2 (by decide) (by decide), h 1 (by decide) (by decide), ackReceived]

theorem readResponse_congr {u : State} (h : ∀ k, k ≠ 0 → answer s k = answer u k) : readResponse s = readResponse u := by
  have hword : wordReceived s = wordReceived u := received_congr fun i _ => h (4 + i) (by omega)
  have hparity : parityReceived s = parityReceived u := h 36 (by decide)
  rw [readResponse, ackReceived_congr fun k h0 _ => h k h0, hword, hparity, readResponse]

theorem writeResponse_congr {u : State} (h : ∀ k, k ≠ 0 → k ≠ 4 → answer s k = answer u k) :
    writeResponse s = writeResponse u := by
  rw [writeResponse, ackReceived_congr h, writeResponse]

end

/-- Settles O46: no turnaround sample has a part in what decides the response. -/
theorem turnaroundSamplesAreIgnored : Obligations.TurnaroundSamplesAreIgnored := by
  intro apndp a data s u s' u' hs hu
  refine ⟨fun h hs' hu' => ?_, fun h hs' hu' => ?_⟩
  · rw [exec_swdRead_rsp hs hs', exec_swdRead_rsp hu hu', readResponse_congr h]
  · rw [exec_swdWrite_rsp hs hs', exec_swdWrite_rsp hu hu', writeResponse_congr h]

end Sys2Proof.Machine
end

section
/-! The frames of a transaction as the target sees them, clock cycle by clock cycle (R107), and their lengths (R108). -/

namespace Sys2Proof.Machine

/-! ### The cycles of a run of bits -/

/-- Events begun with the data line in mode `m` show the cycles `cs`, whatever level was driven and sampled before them. -/
def ShowsCycles (m : Mode) (es : List Event) (cs : List Cycle) : Prop := ∀ d p, cyclesOf m d p es = cs

section

variable {m m' : Mode} {es : List Event} {cs : List Cycle}

theorem ShowsCycles.nil : ShowsCycles m [] [] := fun _ _ => rfl

theorem ShowsCycles.setClk (c m' : Mode) (h : ShowsCycles m es cs) : ShowsCycles m (modeEvents c .clk m' ++ es) cs :=
  fun d p => (cyclesOf_modeEvents_clk c m').trans (h d p)

theorem ShowsCycles.setDio (h : ShowsCycles m' es cs) : ShowsCycles m (modeEvents m .dio m' ++ es) cs :=
  fun d p => (cyclesOf_modeEvents_dio m').trans (h d p)

theorem ShowsCycles.modeDio (h : ShowsCycles m' es cs) : ShowsCycles m (.mode .dio m' :: es) cs := h

theorem ShowsCycles.writeDio (b : Bool) (h : ShowsCycles m es cs) : ShowsCycles m (.write .dio b :: es) cs :=
  fun _ p => h b p

/-- One bit sent is one driven cycle (R190). -/
theorem ShowsCycles.engOut (halfPeriod : Nat) (b : Bool) (h : ShowsCycles .out es cs) :
    ShowsCycles .out (engOutEvents halfPeriod b ++ es) (.drive b :: cs) :=
  fun _ _ => congrArg (List.cons (Cycle.drive b)) (h b none)

/-- One bit received is one cycle left to the environment (R191). -/
theorem ShowsCycles.engIn (halfPeriod : Nat) (b : Bool) (h : ShowsCycles .inp es cs) :
    ShowsCycles .inp (engInEvents halfPeriod b ++ es) (.listen (some b) :: cs) :=
  fun d _ => congrArg (List.cons (Cycle.listen (some b))) (h d none)

/-- Bits that show one cycle each show their cycles in order. -/
theorem ShowsCycles.flatMap {bit : Nat → List Event} {cycle : Nat → Cycle}
    (hbit : ∀ k {es cs}, ShowsCycles m es cs → ShowsCycles m (bit k ++ es) (cycle k :: cs)) (h : ShowsCycles m es cs)
    (ks : List Nat) : ShowsCycles m (ks.flatMap bit ++ es) (ks.map cycle ++ cs) := by
  induction ks with
  | nil => exact h
  | cons k ks ih =>
    rw [List.flatMap_cons, List.append_assoc]
    exact hbit k ih

theorem ShowsCycles.send (halfPeriod n : Nat) (v : Word) (h : ShowsCycles .out es cs) :
    ShowsCycles .out (sendEvents halfPeriod n v ++ es) ((List.range n).map (fun i => Cycle.drive (v.getLsbD i)) ++ cs) :=
  h.flatMap (fun _ => .engOut halfPeriod _) _

theorem ShowsCycles.recv (halfPeriod n : Nat) (f : Nat → Bool) (h : ShowsCycles .inp es cs) :
    ShowsCycles .inp (recvEvents halfPeriod n f ++ es) ((List.range n).map (fun i => Cycle.listen (some (f i))) ++ cs) :=
  h.flatMap (fun _ => .engIn halfPeriod _) _

/-- Low bits sent are low cycles. -/
theorem ShowsCycles.sendLow (halfPeriod n : Nat) (h : ShowsCycles .out es cs) :
    ShowsCycles .out (sendEvents halfPeriod n 0 ++ es) (List.replicate n (.drive false) ++ cs) := by
  have hlow : (List.range n).map (fun i => Cycle.drive ((0 : Word).getLsbD i)) = List.replicate n (.drive false) := by
    simp [List.map_const']
  exact hlow ▸ h.send halfPeriod n 0

end

/-! ### The cycles of a transaction -/

section

variable {apndp rnw : Bool} {a : BitVec 2} {s t : State} {n : Nat} {rest : List TraceEntry} {cs : List Cycle}

/-- The clock cycles every transaction begins with: 8 request bits and the `n` bits of its ACK phase (R94, R98). -/
def openingCycles (apndp rnw : Bool) (a : BitVec 2) (s : State) (n : Nat) : List Cycle :=
  (List.range 8).map (fun i => Cycle.drive ((makeRequest apndp rnw a).getLsbD i)) ++
    (List.range n).map (fun i => Cycle.listen (some (answer s i)))

/-- What a transaction shows: its opening, then the rest of its events. -/
theorem cyclesBetween_acknowledged (ht : t.trace = (acknowledged apndp rnw a s n).trace ++ rest)
    (h : ShowsCycles .inp (rest.map TraceEntry.event) cs) :
    cyclesBetween s t = openingCycles apndp rnw a s n ++ cs := by
  have hrequest : (List.range 8).map (fun i => Cycle.drive (((makeRequest apndp rnw a).setWidth 32).getLsbD i)) =
      (List.range 8).map fun i => .drive ((makeRequest apndp rnw a).getLsbD i) := by
    refine List.map_congr_left fun i hi => ?_
    have hlt : i < 32 := (List.mem_range.mp hi).trans (by decide)
    rw [BitVec.getLsbD_setWidth, decide_eq_true hlt, Bool.true_and]
  have hevents := ((h.recv s.halfPeriod.toNat n (answer s)).modeDio.send s.halfPeriod.toNat 8
    ((makeRequest apndp rnw a).setWidth 32)).setDio (m := s.mode.dio) |>.setClk s.mode.clk .out
  rw [hrequest] at hevents
  rw [openingCycles, List.append_assoc, ← hevents s.lat.dio none, cyclesBetween, ht]
  simp [acknowledged, requested, under_append]

theorem cyclesBetween_readEnded : cyclesBetween s (readEnded apndp a s) = openingCycles apndp true a s 4 ++
    ((List.range 33).map (fun i => Cycle.listen (some (answer s (4 + i)))) ++ List.replicate 8 (.drive false)) := by
  have hend := ((ShowsCycles.nil.writeDio false).sendLow s.halfPeriod.toNat 8).modeDio (m := .inp)
  have hdata := hend.recv s.halfPeriod.toNat 33 (answersFrom s 4)
  refine cyclesBetween_acknowledged (by rw [readEnded, List.append_assoc, List.append_assoc]) ?_
  simpa [answersFrom] using hdata

theorem cyclesBetween_writeEnded (data : Word) :
    cyclesBetween s (writeEnded apndp a data s) = openingCycles apndp false a s 5 ++
    ((List.range 32).map (fun i => Cycle.drive (data.getLsbD i)) ++ .drive (parity32 data) ::
      List.replicate 8 (.drive false)) := by
  have hend := (ShowsCycles.nil.sendLow s.halfPeriod.toNat 8).engOut s.halfPeriod.toNat (parity32 data)
  have hdata := (hend.send s.halfPeriod.toNat 32 data).modeDio (m := .inp)
  refine cyclesBetween_acknowledged (by rw [writeEnded, List.append_assoc]) ?_
  simpa using hdata

theorem cyclesBetween_errorEnded : cyclesBetween s (errorEnded apndp rnw a s n) =
    openingCycles apndp rnw a s n ++ List.replicate 4 (.drive false) := by
  have hflush := ((ShowsCycles.nil.modeDio (m := .out) (m' := .inp)).sendLow s.halfPeriod.toNat 4).modeDio (m := .inp)
  refine cyclesBetween_acknowledged rfl ?_
  simpa using hflush

end

/-- Settles O42: each of the four ends is reached, and shows its cycles. -/
theorem transactionFramesOnTheWire : Obligations.TransactionFramesOnTheWire := by
  intro apndp a data s howner
  by_cases hack : ackReceived s = 0b001
  · rw [exec_swdRead howner, swdRead_ackOk hack, exec_swdWrite howner, swdWrite_ackOk hack, if_pos hack, if_pos hack]
    exact ⟨⟨_, rfl, cyclesBetween_readEnded⟩, ⟨_, rfl, cyclesBetween_writeEnded data⟩⟩
  · rw [exec_swdRead howner, swdRead_ackError hack, exec_swdWrite howner, swdWrite_ackError hack, if_neg hack,
      if_neg hack]
    exact ⟨⟨_, rfl, cyclesBetween_errorEnded⟩, ⟨_, rfl, cyclesBetween_errorEnded⟩⟩

/-! ### Lengths -/

/-- Every clock cycle is one rising edge (R107). -/
theorem length_cyclesOf (m : Mode) (d : Bool) (p : Option Bool) (es : List Event) :
    (cyclesOf m d p es).length = clockCount es := by
  induction es generalizing m d p with
  | nil => rfl
  | cons e es ih =>
    unfold cyclesOf clockCount
    split <;> simp [*, isRisingEdge, clockCount, List.countP_cons]

theorem clockCount_newEvents (s t : State) : clockCount (newEvents s t) = (cyclesBetween s t).length :=
  (length_cyclesOf ..).symm

/-- Settles O43: the cycles of each frame are counted. -/
theorem transactionLengths : Obligations.TransactionLengths := by
  intro apndp a data s howner
  obtain ⟨⟨t, ht, hread⟩, ⟨u, hu, hwrite⟩⟩ := transactionFramesOnTheWire apndp a data s howner
  refine ⟨⟨t, ht, ?_⟩, ⟨u, hu, ?_⟩⟩
  · rw [clockCount_newEvents, hread]
    split <;> simp
  · rw [clockCount_newEvents, hwrite]
    split <;> simp

end Sys2Proof.Machine
end

section
/-! The Pin Controller's three micro-operations, each by the law of its pin primitive (R131 to R134). -/

namespace Sys2Proof.Machine

theorem pinRead_misuse {L : Line} {s : State} (h : s.mode.get L ≠ .inp) : pinRead L s = .error .pinModeMisuse :=
  if_neg h

/-- PIN.READ keeps the state of its sample and hands the level to no register (log 17). -/
theorem exec_pinRead (L : Line) (s : State) : exec (.pinRead L) s = toOutcome (Prod.snd <$> pinRead L s) := by
  change toOutcome (pinRead L s >>= fun p => pure p.2) = _
  cases pinRead L s <;> rfl

/-- Settles O21: a mode change is one event, and its absence none. -/
theorem pinSetModeSetsTheMode : Obligations.PinSetModeSetsTheMode := fun L m s =>
  congrArg Host.Outcome.next (setMode_under L m s)

/-- Settles O22: the primitive either writes or is misused. -/
theorem pinWriteWritesTheLatch : Obligations.PinWriteWritesTheLatch := fun _ b _ =>
  ⟨fun h => congrArg toOutcome (pinWrite_out b h), fun h => congrArg toOutcome (pinWrite_misuse b h)⟩

/-- Settles O23: the primitive either samples or is misused. -/
theorem pinReadSamplesTheEnvironment : Obligations.PinReadSamplesTheEnvironment := by
  refine fun L s => ⟨fun h => ?_, fun h => ?_⟩
  · rw [exec_pinRead, pinRead_inp h]
    rfl
  · rw [exec_pinRead, pinRead_misuse h]
    rfl

end Sys2Proof.Machine
end

section
/-! Where a step can stop (R134, R135, R156): what is taken from the command port stops at 0 Hz and nowhere else, and nothing at
all is refused a meaning. -/

namespace Sys2Proof.Machine

section

variable {i : Instr} {s : State}

/-! ### What can be offered -/

/-- The outcome is a next state, unless `i` asks for 0 Hz, where it may be the fault of R156. -/
inductive AnswersUnlessZeroHz (i : Instr) : Host.Outcome State Fault Refusal → Prop
  | next (t : State) : AnswersUnlessZeroHz i (.next t)
  | zeroHz (hi : requestedHz i = some 0) : AnswersUnlessZeroHz i (.fault .divideByZero)

theorem AnswersUnlessZeroHz.of_ok {x : Except Fault State} {t : State} (h : x = .ok t) :
    AnswersUnlessZeroHz i (toOutcome x) :=
  h ▸ .next t

/-- A refusal is an answer too (R286). -/
theorem AnswersUnlessZeroHz.of_owned {o : Owner} {body : Except Fault State}
    (hbody : AnswersUnlessZeroHz i (toOutcome body)) : AnswersUnlessZeroHz i (toOutcome (ownedBy o s body)) := by
  by_cases ho : s.owner = o
  · rwa [ownedBy_holder ho]
  · exact .of_ok (ownedBy_other ho body)

theorem AnswersUnlessZeroHz.of_setClock {hz : Word} (hi : requestedHz i = some hz) :
    AnswersUnlessZeroHz i (toOutcome (setClock hz s)) := by
  obtain ⟨-, h⟩ | ⟨-, rfl, h⟩ | ⟨-, -, h⟩ := setClock_cases hz s
  · exact .of_ok h
  · rw [h]
    exact .zeroHz hi
  · exact .of_ok h

/-- A read drives its clock line first, so it answers from every state, whatever its ACK (R201). -/
theorem AnswersUnlessZeroHz.of_swdRead (apndp : Bool) (a : BitVec 2) :
    AnswersUnlessZeroHz i (toOutcome (swdRead apndp a s)) := by
  by_cases hack : ackReceived s = ackOkCode
  · exact .of_ok (swdRead_ackOk hack)
  · exact .of_ok (swdRead_ackError hack)

/-- A write drives its clock line first, so it answers from every state, whatever its ACK (R204). -/
theorem AnswersUnlessZeroHz.of_swdWrite (apndp : Bool) (a : BitVec 2) (data : Word) :
    AnswersUnlessZeroHz i (toOutcome (swdWrite apndp a data s)) := by
  by_cases hack : ackReceived s = ackOkCode
  · exact .of_ok (swdWrite_ackOk hack)
  · exact .of_ok (swdWrite_ackError hack)

/-- R135: no operation that can be offered stops, in any state, but at 0 Hz. -/
theorem exec_answersUnlessZeroHz (hi : isOffer i = true) (s : State) : AnswersUnlessZeroHz i (exec i s) := by
  cases i with
  | timSetClock hz => exact .of_setClock rfl
  | swdSetClock hz | jtagSetClock hz => exact .of_owned (.of_setClock rfl)
  | swjDrive levels mask settleUs => exact .of_ok (swjDrive_eq maskBits levels mask settleUs s)
  | swjClockSequence bitCount bytes => exact .of_ok (swjClockSequence_eq bitCount bytes s rfl)
  | swdRead apndp a => exact .of_owned (.of_swdRead apndp a)
  | swdWrite apndp a data => exact .of_owned (.of_swdWrite apndp a data)
  | swdConfigure trn dph =>
    refine .of_owned ?_
    split <;> exact .next _
  | swdAcquire | swdRelease | jtagAcquire | jtagRelease | jtagSequences => exact .of_owned (.next _)
  | suspend | jtagAvailable
  | reserved01111 | unused10111 | unused11000 | unused11001 | unused11010 | unused11011 | unused11100 | unused11101
  | unused11110 | unused11111 => exact .next _
  | pinSetMode | pinWrite | pinRead | timConfigure | timDelay | sendBits | recvBits
  | wireRequestRead | wireRequestWrite | wireAckphaseRead | wireAckphaseWrite
  | wireAckOk | wireAckWait | wireAckFault => exact absurd hi Bool.false_ne_true

theorem AnswersUnlessZeroHz.ne_pinModeMisuse {o : Host.Outcome State Fault Refusal} (h : AnswersUnlessZeroHz i o) :
    o ≠ .fault .pinModeMisuse := by
  cases h <;> nofun

/-! ### The step with nothing in the sequencer's queue -/

theorem fetch_busy (huseq : s.useq = []) (hbusy : s.busy = true) : fetch s = none := by
  simp [fetch, huseq, hbusy]

/-- The block waits, or takes up an offer (R282). -/
theorem fetch_cases (huseq : s.useq = []) :
    fetch s = none ∨ ∃ p rest, fetch s = some (.command p, accepted rest s) := by
  cases hbusy : s.busy with
  | true => exact .inl (fetch_busy huseq hbusy)
  | false =>
    cases hoffers : s.offers with
    | nil => exact .inl (fetch_nothing_offered huseq hoffers)
    | cons p rest => exact .inr ⟨p, rest, fetch_offer huseq hbusy hoffers⟩

theorem step_ne_pinModeMisuse (huseq : s.useq = []) : step s ≠ .fault .pinModeMisuse := by
  obtain hfetch | ⟨p, rest, hfetch⟩ := fetch_cases huseq
  · rw [step_of_fetch_none hfetch]
    nofun
  · obtain ⟨i, hdecode, hi⟩ | hdecode := decodeCommand_cases p
    · rw [step_of_decode_ok hfetch hdecode]
      exact (exec_answersUnlessZeroHz hi _).ne_pinModeMisuse
    · rw [step_of_decode_error hfetch hdecode]
      nofun

/-! ### Nothing is refused a meaning -/

theorem toOutcome_ne_refused (x : Except Fault State) (r : Refusal) : toOutcome x ≠ .refused r := by
  cases x <;> nofun

/-- Every instruction is a computation that answers or faults. -/
theorem exec_ne_refused (i : Instr) (s : State) (r : Refusal) : exec i s ≠ .refused r := by
  cases i with
  | suspend | jtagAvailable | pinSetMode | timConfigure | timDelay | wireAckOk
  | reserved01111 | unused10111 | unused11000 | unused11001 | unused11010 | unused11011 | unused11100 | unused11101
  | unused11110 | unused11111 => nofun
  | _ => exact toOutcome_ne_refused _ r

/-- Bits that encode nothing are refused on the port, flushed or discarded (log 24): each has an outcome. -/
theorem onDecodeError_ne_refused (e : DecodeError) (s : State) (r : Refusal) : onDecodeError e s ≠ .refused r := by
  cases e with
  | ackNoResponse code => exact toOutcome_ne_refused _ r
  | _ => nofun

theorem step_ne_refused (s : State) (r : Refusal) : step s ≠ .refused r := by
  cases hfetch : fetch s with
  | none =>
    rw [step_of_fetch_none hfetch]
    nofun
  | some taken =>
    cases hdecode : decode taken.1 with
    | ok i =>
      rw [step_of_decode_ok hfetch hdecode]
      exact exec_ne_refused i _ r
    | error e =>
      rw [step_of_decode_error hfetch hdecode]
      exact onDecodeError_ne_refused e _ r

end

/-- Settles O54: what a step takes from the command port can stop at 0 Hz only, and no outcome of a step is a refusal. -/
theorem noStepMisusesAPin : Obligations.NoStepMisusesAPin :=
  ⟨fun _ => step_ne_pinModeMisuse, step_ne_refused⟩

end Sys2Proof.Machine
end

section
/-! The Timing Controller (R150 to R154): the half-period, its two operations that answer unconditionally, and the clock request,
whichever operation makes it (R206, R254). -/

namespace Sys2Proof.Machine

/-! ### The derived timing registers -/

theorem halfPeriodOf_eq_ofNat (cpu hz : Word) : halfPeriodOf cpu hz = BitVec.ofNat 32 (cpu.toNat / hz.toNat / 2) := by
  rw [← halfPeriodOf_toNat, BitVec.ofNat_toNat, BitVec.setWidth_eq]

theorem cyclesPerUsOf_eq_ofNat (cpu : Word) : cyclesPerUsOf cpu = BitVec.ofNat 32 (cpu.toNat / 1000000) := by
  rw [← cyclesPerUsOf_toNat, BitVec.ofNat_toNat, BitVec.setWidth_eq]

/-- The two truncating divisions are one, by twice the frequency (R154). -/
theorem halfPeriodOf_toNat_eq_div_two_mul (cpu hz : Word) :
    (halfPeriodOf cpu hz).toNat = cpu.toNat / (2 * hz.toNat) := by
  rw [halfPeriodOf_toNat, Nat.div_div_eq_div_mul, Nat.mul_comm]

/-- Settles O20: above half the processor frequency the one division is of a number by a greater one. -/
theorem halfPeriodArithmetic : Obligations.HalfPeriodArithmetic := by
  refine fun cpu hz _ => ⟨halfPeriodOf_toNat cpu hz, halfPeriodOf_toNat_eq_div_two_mul cpu hz, fun h => ?_⟩
  have hzero : (halfPeriodOf cpu hz).toNat = 0 := by
    rw [halfPeriodOf_toNat_eq_div_two_mul, Nat.div_eq_of_lt h]
  exact BitVec.eq_of_toNat_eq hzero

/-- Settles O24: the half-period is the configured one, which is R151's where `max` is not 0. -/
theorem timConfigureSetsTheTimingRegisters : Obligations.TimConfigureSetsTheTimingRegisters := by
  refine fun cpu max s => ⟨configuredHalfPeriod cpu max, fun h0 => ?_, ?_⟩
  · rw [configuredHalfPeriod, if_neg h0, halfPeriodOf_toNat]
  · rw [← cyclesPerUsOf_eq_ofNat]
    rfl

/-- Settles O25: the operation is the delay, which leaves its event and the counter at 0. -/
theorem timDelayWaits : Obligations.TimDelayWaits := fun _ _ => rfl

/-! ### The clock request -/

section

variable {hz : Word} {s : State}

theorem setClock_rejected (h : s.cpuFreq ≤ hz) : setClock hz s = .ok (respond .clockRejected 0 s) := if_pos h

/-- The range test comes first, so 0 Hz reaches the division only below the processor frequency (R156, R272 (d)). -/
theorem setClock_zeroHz (h : 0 < s.cpuFreq) : setClock 0 s = .error .divideByZero :=
  (if_neg (BitVec.not_le.mpr h)).trans (if_pos rfl)

theorem setClock_accepted (h : hz < s.cpuFreq) (h0 : hz ≠ 0) : setClock hz s =
    .ok (respond .ok 0 { s with maxFreq := hz, halfPeriod := BitVec.ofNat 32 (s.cpuFreq.toNat / hz.toNat / 2) }) := by
  rw [← halfPeriodOf_eq_ofNat]
  exact (if_neg (BitVec.not_le.mpr h)).trans (if_neg h0)

/-- TIM.SET_CLOCK from every owner state, and an engine's request while it holds the bus, are one computation (R153, R206,
R254). -/
theorem exec_setClock {i : Instr}
    (hi : i = .timSetClock hz ∨ (i = .swdSetClock hz ∧ s.owner = .swd) ∨ (i = .jtagSetClock hz ∧ s.owner = .jtag)) :
    exec i s = toOutcome (setClock hz s) := by
  obtain rfl | ⟨rfl, ho⟩ | ⟨rfl, ho⟩ := hi
  · rfl
  · exact congrArg toOutcome (ownedBy_holder ho _)
  · exact congrArg toOutcome (ownedBy_holder ho _)

end

/-- Settles O26: a permitted request is rejected, accepted or stops by its place between 0 and the processor frequency, and an
engine that does not hold the bus is not permitted one. -/
theorem setClockNegotiatesTheHalfPeriod : Obligations.SetClockNegotiatesTheHalfPeriod := by
  refine ⟨fun hz s i hi => ?_, fun hz s => ⟨fun ho => ?_, fun ho => ?_⟩⟩
  · rw [exec_setClock hi]
    refine ⟨fun h => ?_, fun h h0 => ?_, fun h0 h => ?_⟩
    · exact congrArg toOutcome (setClock_rejected (BitVec.le_def.mpr h))
    · exact congrArg toOutcome (setClock_accepted (BitVec.lt_def.mpr h) h0)
    · subst h0
      exact congrArg toOutcome (setClock_zeroHz (BitVec.lt_def.mpr h))
  · exact exec_not_permitted rfl (decide_eq_false ho)
  · exact exec_not_permitted rfl (decide_eq_false ho)

end Sys2Proof.Machine
end

section
/-! The line-level transport: SWJ.CLOCK_SEQUENCE answers its closed form (R173), and no operation that can be offered
drives the reset line high (R172, R310). -/

namespace Sys2Proof.Machine

/-- Settles O28: the closed form, its bits and its count written out. -/
theorem swjClockSequenceClocksTheBits : Obligations.SwjClockSequenceClocksTheBits :=
  fun bitCount bytes s _ hn => congrArg toOutcome (swjClockSequence_eq bitCount bytes s hn.symm)

/-! ### Events that do not drive the reset line high -/

section

variable (halfPeriod : Nat) (m : Mode) (L : Line)

@[simp] theorem resetHigh_notMem_modeEvents (c : Mode) : .write .rst true ∉ modeEvents c L m := by
  unfold modeEvents
  split <;> simp

@[simp] theorem resetHigh_notMem_engOutEvents (b : Bool) : .write .rst true ∉ engOutEvents halfPeriod b := by
  simp [engOutEvents]

@[simp] theorem resetHigh_notMem_sendEvents (n : Nat) (v : Word) : .write .rst true ∉ sendEvents halfPeriod n v := by
  simp [sendEvents]

@[simp] theorem resetHigh_notMem_recvEvents (n : Nat) (f : Nat → Bool) :
    .write .rst true ∉ recvEvents halfPeriod n f := by
  simp [recvEvents, engInEvents]

@[simp] theorem resetHigh_notMem_sequenceEvents (n : Nat) (bytes : List Byte) :
    .write .rst true ∉ sequenceEvents halfPeriod n bytes := by
  simp [sequenceEvents, swjOutEvents]

variable {L} in
/-- A push-pull line is not the reset line (R171). -/
theorem resetHigh_notMem_pushPullEvents (hL : L ≠ .rst) (selected level : Bool) :
    .write .rst true ∉ pushPullEvents m L selected level := by
  unfold pushPullEvents
  split
  · simp [hL.symm]
  · exact List.not_mem_nil

/-- An open-drain line is released for a 1: the only level it is written is 0 (R172). -/
@[simp] theorem resetHigh_notMem_openDrainEvents (selected level : Bool) :
    .write .rst true ∉ openDrainEvents m selected level := by
  unfold openDrainEvents
  split
  · split <;> simp
  · exact List.not_mem_nil

end

/-! ### Operations that do not drive the reset line high -/

/-- Between `s` and `t` no 1 was written to the reset line's latch. -/
structure ResetNotRaised (s t : State) : Prop where
  events : .write .rst true ∉ newEvents s t
  lat : t.lat.rst = s.lat.rst ∨ t.lat.rst = false

section

variable {i : Instr} {s t : State}

theorem ResetNotRaised.of_kept (htrace : t.trace = s.trace) (hlat : t.lat = s.lat) : ResetNotRaised s t :=
  ⟨by simp [newEvents, htrace], .inl (congrArg PerLine.rst hlat)⟩

theorem ResetNotRaised.of_trace {p : Phase} {es : List Event} (htrace : t.trace = s.trace ++ under p es)
    (hes : .write .rst true ∉ es) (hlat : t.lat.rst = s.lat.rst ∨ t.lat.rst = false) : ResetNotRaised s t :=
  ⟨newEvents_of_trace htrace ▸ hes, hlat⟩

theorem ResetNotRaised.of_owned {o : Owner} {body : Except Fault State} (h : toOutcome (ownedBy o s body) = .next t)
    (hbody : body = .ok t → ResetNotRaised s t) : ResetNotRaised s t := by
  obtain ⟨-, hb⟩ | rfl := ownedBy_next h
  · exact hbody hb
  · exact .of_kept rfl rfl

/-- Freeing the bus changes the modes of the other two lines (R196, R252, R258). -/
theorem ResetNotRaised.of_freed (h : t = respond .ok 0 { floatBus s with owner := .free }) : ResetNotRaised s t := by
  rw [floatBus_eq] at h
  subst h
  exact .of_trace rfl (by simp) (.inl rfl)

/-- Every transaction opens on the other two lines, and so does what follows if `rest` does (R94, R98). -/
theorem ResetNotRaised.of_acknowledged {apndp rnw : Bool} {a : BitVec 2} {n : Nat} {rest : List TraceEntry}
    (htrace : t.trace = (acknowledged apndp rnw a s n).trace ++ rest)
    (hrest : .write .rst true ∉ rest.map TraceEntry.event) (hlat : t.lat.rst = s.lat.rst) : ResetNotRaised s t := by
  refine ⟨?_, .inl hlat⟩
  rw [newEvents, htrace]
  simpa [acknowledged, requested] using hrest

theorem swdRead_resetNotRaised {apndp : Bool} {a : BitVec 2} (h : swdRead apndp a s = .ok t) : ResetNotRaised s t := by
  by_cases hack : ackReceived s = ackOkCode
  · cases (swdRead_ackOk hack).symm.trans h
    refine .of_acknowledged (by rw [readEnded, List.append_assoc, List.append_assoc]) ?_ rfl
    simp
  · cases (swdRead_ackError hack).symm.trans h
    refine .of_acknowledged rfl ?_ rfl
    simp

theorem swdWrite_resetNotRaised {apndp : Bool} {a : BitVec 2} {data : Word} (h : swdWrite apndp a data s = .ok t) :
    ResetNotRaised s t := by
  by_cases hack : ackReceived s = ackOkCode
  · cases (swdWrite_ackOk hack).symm.trans h
    refine .of_acknowledged (by rw [writeEnded, List.append_assoc]) ?_ rfl
    simp
  · cases (swdWrite_ackError hack).symm.trans h
    refine .of_acknowledged rfl ?_ rfl
    simp

/-- The one operation that drives the reset line (R171, R172). -/
theorem swjDrive_resetNotRaised {B : MaskBits} {levels mask : Byte} {settleUs : Word}
    (h : swjDrive B levels mask settleUs s = .ok t) : ResetNotRaised s t := by
  cases (swjDrive_eq B levels mask settleUs s).symm.trans h
  exact .of_trace rfl (by simp [resetHigh_notMem_pushPullEvents]) (ite_eq_or_eq _ _ _).symm

theorem swjClockSequence_resetNotRaised {bitCount : Word} {bytes : List Byte}
    (h : swjClockSequence bitCount bytes s = .ok t) : ResetNotRaised s t := by
  cases (swjClockSequence_eq bitCount bytes s rfl).symm.trans h
  refine .of_trace rfl (by simp) (.inl ?_)
  split <;> rfl

/-- R172, R310: what can be offered causes no pin event, or its events are those of a closed form. -/
theorem exec_resetNotRaised (hi : isOffer i = true) (h : exec i s = .next t) : ResetNotRaised s t := by
  cases i with
  | suspend => exact .of_freed (Host.Outcome.next.inj h).symm
  | swjDrive levels mask settleUs => exact swjDrive_resetNotRaised (toOutcome_next h)
  | swjClockSequence bitCount bytes => exact swjClockSequence_resetNotRaised (toOutcome_next h)
  | swdAcquire =>
    refine .of_owned h fun hb => ?_
    rw [driveBus_eq] at hb
    cases hb
    exact .of_trace rfl (by simp) (.inl rfl)
  | swdRelease | jtagRelease => exact .of_owned h fun hb => .of_freed (Except.ok.inj hb).symm
  | swdRead apndp a => exact .of_owned h swdRead_resetNotRaised
  | swdWrite apndp a data => exact .of_owned h swdWrite_resetNotRaised
  | jtagAcquire | jtagSequences =>
    refine .of_owned h fun hb => ?_
    cases hb
    exact .of_kept rfl rfl
  | timSetClock hz | swdSetClock hz | jtagSetClock hz =>
    obtain ⟨htrace, -, hlat⟩ := pinlessOperationsLeaveTheTrace _ s t h (.inr (.inl ⟨hz, rfl⟩))
    exact .of_kept htrace hlat
  | swdConfigure trn dph =>
    obtain ⟨htrace, -, hlat⟩ := pinlessOperationsLeaveTheTrace _ s t h (.inl ⟨trn, dph, rfl⟩)
    exact .of_kept htrace hlat
  | jtagAvailable
  | reserved01111 | unused10111 | unused11000 | unused11001 | unused11010 | unused11011 | unused11100 | unused11101
  | unused11110 | unused11111 =>
    cases h
    exact .of_kept rfl rfl
  | pinSetMode | pinWrite | pinRead | timConfigure | timDelay | sendBits | recvBits
  | wireRequestRead | wireRequestWrite | wireAckphaseRead | wireAckphaseWrite
  | wireAckOk | wireAckWait | wireAckFault => exact absurd hi Bool.false_ne_true

end

/-- Settles O56, operation by operation. -/
theorem resetLineIsNeverDrivenHigh : Obligations.ResetLineIsNeverDrivenHigh := by
  intro i s t hi h
  obtain ⟨hevents, hlat⟩ := exec_resetNotRaised hi h
  exact ⟨fun e he heq => hevents (heq ▸ he), hlat⟩

end Sys2Proof.Machine
end

section
/-! The parity check of a read (R104, R203): corrupting a bit changes the parity. -/

namespace Sys2Proof.Machine

theorem bodd_toNat (b : Bool) : b.toNat.bodd = b := by
  cases b <;> rfl

theorem parity32_eq_bodd (w : Word) : parity32 w = (popcount w).bodd := by
  rw [parity32, Nat.mod_two_of_bodd]
  cases (popcount w).bodd <;> rfl

/-- A corrupted bit changes the parity, a kept one does not. -/
theorem bodd_popcountUpTo_xor (w e : Word) (n : Nat) :
    (popcountUpTo (w ^^^ e) n).bodd = ((popcountUpTo w n).bodd ^^ (popcountUpTo e n).bodd) := by
  induction n with
  | zero => simp [popcountUpTo]
  | succ n ih => simp [popcountUpTo, bodd_toNat, ih, Bool.xor_left_comm]

theorem parity32_xor (w e : Word) : parity32 (w ^^^ e) = (parity32 w ^^ parity32 e) := by
  rw [parity32_eq_bodd, parity32_eq_bodd, parity32_eq_bodd]
  exact bodd_popcountUpTo_xor w e 32

/-- A parity bit matches exactly when the ones of the word and of the bit itself are even in number (R104). -/
theorem eq_parity32_iff (w : Word) (c : Bool) : c = parity32 w ↔ (popcount w + c.toNat) % 2 = 0 := by
  rw [parity32]
  cases c with
  | false =>
    rw [eq_comm, decide_eq_false_iff_not, Bool.toNat_false]
    omega
  | true =>
    rw [eq_comm, decide_eq_true_iff, Bool.toNat_true]
    omega

/-- Settles O17: the parity of the word itself cancels, and the parity bit is compared with that of the corruption. -/
theorem parityCheckDetectsOddCorruption : Obligations.ParityCheckDetectsOddCorruption := by
  intro w e c
  rw [parity32_xor, Bool.xor_right_inj, eq_parity32_iff]

end Sys2Proof.Machine
end

section
/-! The two bit micro-operations standing alone (R190 to R193). -/

namespace Sys2Proof.Machine

/-- With no bit to send only the data line's mode is set, whatever the clock line's (R192). -/
theorem sendBits_zero (v : Word) (s : State) :
    sendBits 0 v s = .ok { s with
      mode := s.mode.set .dio .out
      bitcnt := 0
      trace := s.trace ++ under s.phase (modeEvents s.mode.dio .dio .out) } := by
  rw [sendBits, setMode_under]
  rfl

/-- With no bit to receive only the data line's mode is set, whatever the clock line's (R193). -/
theorem recvBits_zero (s : State) :
    recvBits 0 s = .ok (0, { s with
      mode := s.mode.set .dio .inp
      bitcnt := 0
      trace := s.trace ++ under s.phase (modeEvents s.mode.dio .dio .inp) }) := by
  rw [recvBits, setMode_under]
  rfl

/-- RECV_BITS leaves what it received in `shreg` (log 13). -/
theorem exec_recvBits (n : Nat) (s : State) :
    exec (.recvBits n) s = toOutcome (recvBits n s >>= fun r => pure { r.2 with shreg := r.1 }) := rfl

/-- Settles O30: the bits are clocked, or there is none, or the first one finds the clock line not driven. -/
theorem sendBitsClocksLsbFirst : Obligations.SendBitsClocksLsbFirst := by
  refine fun n v s hn => ⟨?_, fun hc h0 => congrArg toOutcome (sendBits_misuse v hc h0)⟩
  rintro (hc | rfl)
  · exact congrArg toOutcome (sendBits_eq v hc hn)
  · refine (congrArg toOutcome (sendBits_zero v s)).trans ?_
    simp

/-- Settles O31: the bits are sampled, or there is none, or the first one finds the clock line not driven. -/
theorem recvBitsSamplesLsbFirst : Obligations.RecvBitsSamplesLsbFirst := by
  refine fun n s hn => ⟨?_, fun hc h0 => ?_⟩
  · rintro (hc | rfl)
    · rw [exec_recvBits, recvBits_eq hc hn]
      rfl
    · rw [exec_recvBits, recvBits_zero]
      simp [ok_bind, pure, Except.pure, received]
  · rw [exec_recvBits, recvBits_misuse hc h0]
    rfl

end Sys2Proof.Machine
end

section
/-! SWD.ACQUIRE, the releases, SUSPEND and SWD.CONFIGURE (R195, R196, R205, R252, R258). -/

namespace Sys2Proof.Machine

/-- Settles O32: a free bus is driven, any other refused. -/
theorem swdAcquireDrivesBothLines : Obligations.SwdAcquireDrivesBothLines := by
  refine fun s => ⟨fun hfree => ?_, fun ho => exec_not_permitted rfl (decide_eq_false ho)⟩
  refine (congrArg toOutcome (ownedBy_holder hfree _)).trans ?_
  rw [driveBus_eq]
  rfl

/-- Who holds the bus, and SUSPEND, free it by one computation (R196, R252, R258). -/
theorem exec_freeing {s : State} {i : Instr}
    (hi : (i = .swdRelease ∧ s.owner = .swd) ∨ (i = .jtagRelease ∧ s.owner = .jtag) ∨ i = .suspend) :
    exec i s = .next (respond .ok 0 { floatBus s with owner := .free }) := by
  obtain ⟨rfl, ho⟩ | ⟨rfl, ho⟩ | rfl := hi
  · exact congrArg toOutcome (ownedBy_holder ho _)
  · exact congrArg toOutcome (ownedBy_holder ho _)
  · rfl

/-- Settles O33: whoever frees the bus floats it. -/
theorem releaseAndSuspendFloatBothLines : Obligations.ReleaseAndSuspendFloatBothLines := by
  refine ⟨fun s i hi => ?_, fun s => ⟨fun ho => ?_, fun ho => ?_⟩⟩
  · rw [exec_freeing hi, floatBus_eq]
    rfl
  · exact exec_not_permitted rfl (decide_eq_false ho)
  · exact exec_not_permitted rfl (decide_eq_false ho)

/-- Settles O40: the operands are compared with the hard-wired configuration. -/
theorem swdConfigureAcceptsOneConfiguration : Obligations.SwdConfigureAcceptsOneConfiguration := by
  refine fun trn dph s => ⟨fun ho => ?_, fun ho => exec_not_permitted rfl (decide_eq_false ho)⟩
  refine (congrArg toOutcome (ownedBy_holder ho _)).trans ?_
  by_cases h : trn = 0 ∧ dph = false
  · rw [if_pos h, if_pos (show trn = s.trnCfg ∧ dph = s.dphCfg from h)]
    rfl
  · rw [if_neg h, if_neg (show ¬(trn = s.trnCfg ∧ dph = s.dphCfg) from h)]
    rfl

end Sys2Proof.Machine
end

section
/-! The four transactions by their next state (R201 to R204). -/

namespace Sys2Proof.Machine

/-- Settles O36: the last write is one more event of the trailing phase. -/
theorem swdReadWithAckOk : Obligations.SwdReadWithAckOk := by
  intro apndp a s howner hack
  rw [exec_swdRead howner, swdRead_ackOk hack, readEnded, List.append_assoc, ← under_append, ← hack]
  simp [acknowledged, requested, List.drop_drop]

/-- Settles O37: the flush follows the 4 bits of the ACK phase. -/
theorem swdReadWithAckError : Obligations.SwdReadWithAckError := by
  intro apndp a s howner hack
  rw [exec_swdRead howner, swdRead_ackError hack]
  rfl

/-- Settles O38: the data phase and the trailing bits follow the 5 bits of the ACK phase. -/
theorem swdWriteWithAckOk : Obligations.SwdWriteWithAckOk := by
  intro apndp a data s howner hack
  rw [exec_swdWrite howner, swdWrite_ackOk hack, ← hack]
  rfl

/-- Settles O39: the flush follows the 5 bits of the ACK phase. -/
theorem swdWriteWithAckError : Obligations.SwdWriteWithAckError := by
  intro apndp a data s howner hack
  rw [exec_swdWrite howner, swdWrite_ackError hack]
  rfl

end Sys2Proof.Machine
end

section
/-! The flush after a failed ACK (R202). -/

namespace Sys2Proof.Machine

section

variable {apndp rnw : Bool} {a : BitVec 2} {s t u : State} {n : Nat}

theorem newEvents_append {p : Phase} {es : List Event} (hst : s.trace <+: t.trace)
    (hu : u.trace = t.trace ++ under p es) : newEvents s u = newEvents s t ++ es := by
  rw [newEvents, newEvents, hu, List.drop_append_of_le_length hst.length_le, List.map_append, map_event_under]

theorem trace_prefix_acknowledged : s.trace <+: (acknowledged apndp rnw a s n).trace := by
  simp [acknowledged, requested]

/-- A transaction has clocked its 8 request bits and the `n` bits of its ACK phase when it has its ACK (R94, R98). -/
theorem clockCount_acknowledged : clockCount (newEvents s (acknowledged apndp rnw a s n)) = 8 + n := by
  rw [clockCount_newEvents, cyclesBetween_acknowledged (List.append_nil _).symm ShowsCycles.nil, openingCycles]
  simp

theorem newEvents_errorEnded : newEvents s (errorEnded apndp rnw a s n) =
    newEvents s (acknowledged apndp rnw a s n) ++
      (.mode .dio .out :: sendEvents s.halfPeriod.toNat 4 0 ++ [.mode .dio .inp]) :=
  newEvents_append trace_prefix_acknowledged rfl

end

/-- Settles O41: the flush is all that follows the ACK. -/
theorem nonOkAckFlushesFourLowBits : Obligations.NonOkAckFlushesFourLowBits := by
  intro apndp a data s i howner hack hi
  obtain rfl | rfl := hi
  · rw [exec_swdRead howner, swdRead_ackError hack, if_pos rfl]
    exact ⟨_, _, rfl, newEvents_errorEnded, clockCount_acknowledged, rfl, rfl, rfl, rfl⟩
  · rw [exec_swdWrite howner, swdWrite_ackError hack, if_neg nofun]
    exact ⟨_, _, rfl, newEvents_errorEnded, clockCount_acknowledged, rfl, rfl, rfl, rfl⟩

end Sys2Proof.Machine
end

section
/-! The clock cycles each phase labels (R29, R200). -/

namespace Sys2Proof.Machine

/-! ### Clock cycles of a run of bits -/

@[simp] theorem clockCount_nil : clockCount [] = 0 := rfl

@[simp] theorem clockCount_append (es fs : List Event) : clockCount (es ++ fs) = clockCount es + clockCount fs :=
  List.countP_append

@[simp] theorem clockCount_mode (L : Line) (m : Mode) (es : List Event) :
    clockCount (.mode L m :: es) = clockCount es :=
  List.countP_cons_of_neg Bool.false_ne_true

/-- A write to the data line is no rising edge of the clock. -/
@[simp] theorem clockCount_writeDio (b : Bool) (es : List Event) :
    clockCount (.write .dio b :: es) = clockCount es :=
  List.countP_cons_of_neg Bool.false_ne_true

@[simp] theorem clockCount_modeEvents (c : Mode) (L : Line) (m : Mode) : clockCount (modeEvents c L m) = 0 := by
  unfold modeEvents
  split <;> rfl

@[simp] theorem clockCount_engOutEvents (halfPeriod : Nat) (b : Bool) : clockCount (engOutEvents halfPeriod b) = 1 := rfl

@[simp] theorem clockCount_engInEvents (halfPeriod : Nat) (b : Bool) : clockCount (engInEvents halfPeriod b) = 1 := rfl

/-- Bits of one clock cycle each take as many cycles as there are bits. -/
theorem clockCount_flatMap {bit : Nat → List Event} (hbit : ∀ k, clockCount (bit k) = 1) (n : Nat) :
    clockCount ((List.range n).flatMap bit) = n := by
  induction n with
  | zero => rfl
  | succ n ih => rw [List.range_succ, List.flatMap_append, clockCount_append, ih, List.flatMap_singleton, hbit]

@[simp] theorem clockCount_sendEvents (halfPeriod n : Nat) (v : Word) : clockCount (sendEvents halfPeriod n v) = n :=
  clockCount_flatMap (fun _ => clockCount_engOutEvents ..) n

@[simp] theorem clockCount_recvEvents (halfPeriod n : Nat) (f : Nat → Bool) :
    clockCount (recvEvents halfPeriod n f) = n :=
  clockCount_flatMap (fun _ => clockCount_engInEvents ..) n

/-! ### Clock cycles by phase -/

/-- The number of clock cycles a piece of trace shows while phase `p` is held (R200). -/
def phaseClocks (p : Phase) (es : List TraceEntry) : Nat :=
  clockCount ((es.filter fun e => decide (e.phase = p)).map TraceEntry.event)

theorem clocksInPhase_eq (p : Phase) (s t : State) :
    clocksInPhase p s t = phaseClocks p (t.trace.drop s.trace.length) := rfl

@[simp] theorem phaseClocks_append (p : Phase) (es fs : List TraceEntry) :
    phaseClocks p (es ++ fs) = phaseClocks p es + phaseClocks p fs := by
  rw [phaseClocks, List.filter_append, List.map_append, clockCount_append]
  rfl

@[simp] theorem phaseClocks_under (p q : Phase) (es : List Event) :
    phaseClocks p (under q es) = if q = p then clockCount es else 0 := by
  have hfilter : (under q es).filter (fun e => decide (e.phase = p)) = if q = p then under q es else [] := by
    split
    · next h => exact List.filter_eq_self.mpr (by simp [under, h])
    · next h => exact List.filter_eq_nil_iff.mpr (by simp [under, h])
  rw [phaseClocks, hfilter]
  split
  · rw [map_event_under]
  · rfl

section

variable {apndp rnw : Bool} {a : BitVec 2} {data : Word} {s t : State} {n : Nat}

/-- The request is clocked in `RequestSent`, the ACK in `AckPhase`, whatever the phase the transaction began in (R200). -/
theorem clocksInPhase_acknowledged (p : Phase) {rest : List TraceEntry}
    (ht : t.trace = (acknowledged apndp rnw a s n).trace ++ rest) :
    clocksInPhase p s t =
      (if .requestSent = p then 8 else 0) + (if .ackPhase = p then n else 0) + phaseClocks p rest := by
  rw [clocksInPhase_eq, ht]
  simp [acknowledged, requested, Nat.add_assoc, -under_cons]

/-- R200, R201: after the ACK of a read, `DataPhase` and `TrailingIdle`. -/
theorem clocksInPhase_readEnded (p : Phase) : clocksInPhase p s (readEnded apndp a s) =
    (if .requestSent = p then 8 else 0) + (if .ackPhase = p then 4 else 0) +
      ((if .dataPhase = p then 33 else 0) + if .trailingIdle = p then 8 else 0) := by
  rw [clocksInPhase_acknowledged p (by rw [readEnded, List.append_assoc, List.append_assoc]), ← under_append]
  simp [-under_cons]

/-- R200, R204: after the ACK of a write, `DataSend` and `TrailingIdle`. -/
theorem clocksInPhase_writeEnded (p : Phase) : clocksInPhase p s (writeEnded apndp a data s) =
    (if .requestSent = p then 8 else 0) + (if .ackPhase = p then 5 else 0) +
      ((if .dataSend = p then 33 else 0) + if .trailingIdle = p then 8 else 0) := by
  rw [clocksInPhase_acknowledged p (by rw [writeEnded, List.append_assoc])]
  simp [-under_cons]

/-- R200, R202: after an ACK that is not OK, `ErrorFlush` only. -/
theorem clocksInPhase_errorEnded (p : Phase) : clocksInPhase p s (errorEnded apndp rnw a s n) =
    (if .requestSent = p then 8 else 0) + (if .ackPhase = p then n else 0) + if .errorFlush = p then 4 else 0 := by
  rw [clocksInPhase_acknowledged p rfl]
  simp [-under_cons]

end

/-- Settles O44: each of the four ends is in phase `Idle`, and a phase's clocks are one term of its sum. -/
theorem phasesLabelTheirClocks : Obligations.PhasesLabelTheirClocks := by
  intro apndp a data s t ok howner _ hok
  by_cases hack : ackReceived s = 0b001
  · rw [hok, decide_eq_true hack, exec_swdRead howner, swdRead_ackOk hack, exec_swdWrite howner, swdWrite_ackOk hack]
    refine ⟨fun h => ?_, fun h => ?_⟩ <;> cases h
    · exact ⟨rfl, by simp [clocksInPhase_readEnded]⟩
    · exact ⟨rfl, by simp [clocksInPhase_writeEnded]⟩
  · rw [hok, decide_eq_false hack, exec_swdRead howner, swdRead_ackError hack, exec_swdWrite howner,
      swdWrite_ackError hack]
    refine ⟨fun h => ?_, fun h => ?_⟩ <;> cases h
    · exact ⟨rfl, by simp [clocksInPhase_errorEnded]⟩
    · exact ⟨rfl, by simp [clocksInPhase_errorEnded]⟩

end Sys2Proof.Machine
end

section
/-! A second SUSPEND, and the JTAG stub (R250, R251, R253, R258). -/

namespace Sys2Proof.Machine

/-- Floating a bus whose two lines float changes nothing and records nothing (R131). -/
theorem floatBus_of_floating {s : State} (hclk : s.mode.clk = .inp) (hdio : s.mode.dio = .inp) : floatBus s = s := by
  rw [floatBus, setMode_of_eq (show s.mode.get .clk = .inp from hclk),
    setMode_of_eq (show s.mode.get .dio = .inp from hdio)]

/-- SUSPEND received while nobody holds the bus and both lines float only answers (R258). -/
theorem exec_suspend_of_quiescent {s : State} (howner : s.owner = .free) (hclk : s.mode.clk = .inp)
    (hdio : s.mode.dio = .inp) : exec .suspend s = .next (respond .ok 0 s) := by
  rw [exec_freeing (.inr (.inr rfl)), floatBus_of_floating hclk hdio, ← howner]

/-- Settles O34: the first SUSPEND leaves the block quiescent, its answer already given. -/
theorem suspendIsIdempotent : Obligations.SuspendIsIdempotent := by
  intro s
  have hmode := floatBus_mode s
  exact ⟨_, exec_freeing (.inr (.inr rfl)),
    exec_suspend_of_quiescent rfl (congrArg PerLine.clk hmode) (congrArg PerLine.dio hmode)⟩

/-- Settles O35: the stub's answers are given by `respond`, its refusals by the permission table. -/
theorem jtagStubTouchesNoLine : Obligations.JtagStubTouchesNoLine := by
  refine ⟨fun s => ?available, fun s hfree => ?acquire, fun s n bytes hjtag => ?sequences,
    fun s ho => ?acquireRefused, fun s n bytes ho => ?sequencesRefused⟩
  case available => rfl
  case acquire => exact congrArg toOutcome (ownedBy_holder hfree _)
  case sequences => exact congrArg toOutcome (ownedBy_holder hjtag _)
  case acquireRefused => exact exec_not_permitted rfl (decide_eq_false ho)
  case sequencesRefused => exact exec_not_permitted rfl (decide_eq_false ho)

end Sys2Proof.Machine
end

section
/-! What a step takes up, and when it waits (R35, R282, R325, U20). -/

namespace Sys2Proof.Machine

/-- Settles O6: an accepted offer, or a frame of the sequencer's own, is what is fetched. -/
theorem stepRunsTheDecodedOperation : Obligations.StepRunsTheDecodedOperation :=
  ⟨fun _ _ _ _ huseq hbusy hoffers hdecode => step_of_decode_ok (fetch_offer huseq hbusy hoffers) hdecode,
    fun _ _ _ _ huseq hdecode => step_of_decode_ok (fetch_internal huseq) hdecode⟩

/-- Settles O7: in both cases nothing is fetched. -/
theorem anOfferWaitsWhileBusy : Obligations.AnOfferWaitsWhileBusy := by
  rintro s huseq (hbusy | hoffers)
  · exact step_of_fetch_none (fetch_busy huseq hbusy)
  · exact step_of_fetch_none (fetch_nothing_offered huseq hoffers)

end Sys2Proof.Machine
end

section
/-! Completion (R286, R322, R326): every permitted operation is performed to the end and answers, and a run ends with one response
to each of its operations (R325). -/

namespace Sys2Proof.Machine

/-- An operation was performed and has ended in `t`: a result is presented that is not a refusal, and the block is idle. -/
structure Completed (t : State) : Prop where
  valid : t.rsp.valid = true
  performed : t.rsp.status ≠ .refused
  busy : t.busy = false

section

variable {i : Instr} {s t : State}

/-! ### Responses of what is permitted -/

theorem Completed.of_rsp {st : Status} {d : Word} (h : t.rsp = ⟨st, d, true⟩) (hst : st ≠ .refused)
    (hbusy : t.busy = false) : Completed t :=
  ⟨congrArg Rsp.valid h, fun he => hst ((congrArg Rsp.status h).symm.trans he), hbusy⟩

theorem completed_respond {st : Status} (hst : st ≠ .refused) (d : Word) (s : State) : Completed (respond st d s) :=
  .of_rsp rfl hst rfl

/-- An operation of the bus holder answers by its body. -/
theorem Completed.of_holder {o : Owner} {body : Except Fault State} (hp : decide (s.owner = o) = true)
    (h : toOutcome (ownedBy o s body) = .next t) (hbody : body = .ok t → Completed t) : Completed t := by
  rw [ownedBy_holder (of_decide_eq_true hp)] at h
  exact hbody (toOutcome_next h)

theorem setClock_completed {hz : Word} (h : setClock hz s = .ok t) : Completed t := by
  obtain ⟨-, he⟩ | ⟨-, -, he⟩ | ⟨-, -, he⟩ := setClock_cases hz s <;> rw [he] at h <;> cases h
  · exact completed_respond (by decide) 0 _
  · exact completed_respond (by decide) 0 _

theorem ackErrorStatus_ne_refused (ack : BitVec 3) : ackErrorStatus ack ≠ .refused := by
  unfold ackErrorStatus
  split_ifs <;> decide

theorem swdRead_completed {apndp : Bool} {a : BitVec 2} (h : swdRead apndp a s = .ok t) : Completed t := by
  by_cases hack : ackReceived s = ackOkCode
  · cases (swdRead_ackOk hack).symm.trans h
    by_cases hpar : parityReceived s = parity32 (wordReceived s)
    · exact .of_rsp (if_pos hpar) (by decide) rfl
    · exact .of_rsp (if_neg hpar) (by decide) rfl
  · cases (swdRead_ackError hack).symm.trans h
    exact .of_rsp rfl (ackErrorStatus_ne_refused _) rfl

theorem swdWrite_completed {apndp : Bool} {a : BitVec 2} {data : Word} (h : swdWrite apndp a data s = .ok t) :
    Completed t := by
  by_cases hack : ackReceived s = ackOkCode
  · cases (swdWrite_ackOk hack).symm.trans h
    exact .of_rsp rfl (by decide) rfl
  · cases (swdWrite_ackError hack).symm.trans h
    exact .of_rsp rfl (ackErrorStatus_ne_refused _) rfl

/-- What is permitted ends in a response of its own, whenever it ends (R286, R322). -/
theorem exec_completed (hp : permitted s.owner i = true) (h : exec i s = .next t) : Completed t := by
  cases i with
  | suspend | jtagAvailable =>
    cases h
    exact completed_respond (by decide) 0 _
  | timSetClock hz => exact setClock_completed (toOutcome_next h)
  | swdSetClock hz | jtagSetClock hz => exact .of_holder hp h setClock_completed
  | swjDrive levels mask settleUs =>
    cases (swjDrive_eq maskBits levels mask settleUs s).symm.trans (toOutcome_next h)
    exact .of_rsp rfl (by decide) rfl
  | swjClockSequence bitCount bytes =>
    cases (swjClockSequence_eq bitCount bytes s rfl).symm.trans (toOutcome_next h)
    exact .of_rsp rfl (by decide) rfl
  | swdRead apndp a => exact .of_holder hp h swdRead_completed
  | swdWrite apndp a data => exact .of_holder hp h swdWrite_completed
  | swdConfigure trn dph =>
    refine .of_holder hp h fun hb => ?_
    split at hb <;> cases hb <;> exact completed_respond (by decide) 0 _
  | swdAcquire | swdRelease | jtagAcquire | jtagRelease | jtagSequences =>
    refine .of_holder hp h fun hb => ?_
    cases hb
    exact completed_respond (by decide) 0 _
  | reserved01111 | unused10111 | unused11000 | unused11001 | unused11010 | unused11011 | unused11100 | unused11101
  | unused11110 | unused11111 | pinSetMode | pinWrite | pinRead | timConfigure | timDelay | sendBits | recvBits
  | wireRequestRead | wireRequestWrite | wireAckphaseRead | wireAckphaseWrite
  | wireAckOk | wireAckWait | wireAckFault => exact absurd hp Bool.false_ne_true

/-! ### What can be offered answers -/

/-- The table of R286 permits only what can be offered. -/
theorem isOffer_of_permitted {o : Owner} (hp : permitted o i = true) : isOffer i = true := by
  cases i with
  | pinSetMode | pinWrite | pinRead | timConfigure | timDelay | sendBits | recvBits
  | wireRequestRead | wireRequestWrite | wireAckphaseRead | wireAckphaseWrite
  | wireAckOk | wireAckWait | wireAckFault => exact absurd hp Bool.false_ne_true
  | _ => rfl

theorem AnswersUnlessZeroHz.exists_next {o : Host.Outcome State Fault Refusal} (h : AnswersUnlessZeroHz i o)
    (h0 : requestedHz i ≠ some 0) : ∃ t, o = .next t := by
  cases h with
  | next t => exact ⟨t, rfl⟩
  | zeroHz hi => exact absurd hi h0

/-- Performed or refused, what can be offered leaves a result presented (R35). -/
theorem exec_valid (hi : isOffer i = true) (h : exec i s = .next t) : t.rsp.valid = true := by
  cases hp : permitted s.owner i with
  | true => exact (exec_completed hp h).valid
  | false =>
    cases (exec_not_permitted hi hp).symm.trans h
    rfl

/-! ### Runs -/

/-- A step from a state of rest takes up the first offer and answers it (R282, R325). -/
theorem step_answers_offer {p : CmdPort} {rest : List CmdPort} (hinv : Inv s) (hoffers : s.offers = p :: rest)
    (hhz : ∀ i, decode (.command p) = .ok i → requestedHz i ≠ some 0) :
    ∃ t, step s = .next t ∧ t.offers = rest ∧ t.rsp.valid = true := by
  obtain ⟨huseq, hbusy, -, -⟩ := (inv_iff s).mp hinv
  have hfetch := fetch_offer huseq hbusy hoffers
  obtain ⟨i, hdecode, hi⟩ | hdecode := decodeCommand_cases p
  · obtain ⟨t, ht⟩ := (exec_answersUnlessZeroHz hi (accepted rest s)).exists_next (hhz i hdecode)
    exact ⟨t, (step_of_decode_ok hfetch hdecode).trans ht, (exec_effect ht).offers, exec_valid hi ht⟩
  · exact ⟨_, step_of_decode_error hfetch hdecode, rfl, rfl⟩

/-- `q` is what offering `ops` to a block at rest, its response register holding `rsp`, comes to. -/
structure Answered (ops : List CmdPort) (rsp : Rsp) (q : RunResult) : Prop where
  length : q.responses.length = ops.length
  valid : ∀ x ∈ q.responses, x.valid = true
  last : q.responses.getLast?.getD rsp = q.final.rsp
  inv : Inv q.final
  offers : q.final.offers = []

/-- The response to an operation stands before those to the operations after it. -/
theorem Answered.cons {p : CmdPort} {rest : List CmdPort} {q : RunResult} (rsp : Rsp) (hvalid : t.rsp.valid = true)
    (hq : Answered rest t.rsp q) : Answered (p :: rest) rsp { q with responses := t.rsp :: q.responses } where
  length := congrArg Nat.succ hq.length
  valid := List.forall_mem_cons.mpr ⟨hvalid, hq.valid⟩
  last := by rw [List.getLast?_cons, Option.getD_some, hq.last]
  inv := hq.inv
  offers := hq.offers

/-- One step per operation offered: the invariant set, kept by each, makes the next one answer too (R325). -/
theorem collect_answered {ops : List CmdPort} (hinv : Inv s) (hoffers : s.offers = ops)
    (hhz : ∀ p ∈ ops, ∀ i, decode (.command p) = .ok i → requestedHz i ≠ some 0) :
    ∃ q, collect ops.length s = .next q ∧ Answered ops s.rsp q := by
  induction ops generalizing s with
  | nil => exact ⟨_, rfl, rfl, nofun, rfl, hinv, hoffers⟩
  | cons p rest ih =>
    obtain ⟨hp, hrest⟩ := List.forall_mem_cons.mp hhz
    obtain ⟨t, hstep, ht, hvalid⟩ := step_answers_offer hinv hoffers hp
    obtain ⟨q, hcollect, hq⟩ := ih (everyStepKeepsTheInvariants s t hinv hstep) ht hrest
    exact ⟨_, collect_succ hstep hcollect, hq.cons s.rsp hvalid⟩

/-- The last response collected is the one still presented, so a run answered has ended. -/
theorem Answered.runEnded {r : RunInput} {rsp : Rsp} {q : RunResult} (hq : Answered r.ops rsp q) : RunEnded r q.final := by
  obtain ⟨huseq, hbusy, hready, -⟩ := (inv_iff q.final).mp hq.inv
  refine ⟨hq.offers, huseq, hready.phase, hbusy, fun hne => ?_⟩
  have hresponses : q.responses ≠ [] := fun he =>
    hne (List.eq_nil_of_length_eq_zero (hq.length.symm.trans (congrArg List.length he)))
  rw [← hq.last, List.getLast?_eq_some_getLast hresponses]
  exact hq.valid _ (List.getLast_mem hresponses)

end

/-- Settles O53: what is permitted answers and completes; a run is answered by induction on what is offered. -/
theorem whatIsPermittedCompletes : Obligations.WhatIsPermittedCompletes := by
  refine ⟨fun i s hp h0 => ?_, fun r s hinv hhz => ?_⟩
  · obtain ⟨t, ht⟩ := (exec_answersUnlessZeroHz (isOffer_of_permitted hp) s).exists_next h0
    obtain ⟨hvalid, hperformed, hbusy⟩ := exec_completed hp ht
    exact ⟨t, ht, hvalid, hperformed, hbusy⟩
  · have hlaunch : Inv (launch r s) := hinv
    obtain ⟨q, hq, hans⟩ := collect_answered hlaunch (launch_offers r s) hhz
    exact ⟨q, hq, hans.length, hans.valid, hans.last, hans.runEnded⟩

end Sys2Proof.Machine
end

section
/-! Reset performs TIM.CONFIGURE (R300). -/

namespace Sys2Proof.Machine

/-- Where the frequency is not 0 the configured half-period is R151's. -/
theorem configuredHalfPeriod_of_ne_zero (cpu : Word) {max : Word} (h0 : max ≠ 0) :
    configuredHalfPeriod cpu max = halfPeriodOf cpu max := if_neg h0

/-- Settles O3: the half-period TIM.CONFIGURE computes is that of the reset state, the other fields are as they stand. -/
theorem resetPerformsTimConfigure : Obligations.ResetPerformsTimConfigure := by
  intro cpu max lat h0
  rw [State.resetWith, ← configuredHalfPeriod_of_ne_zero cpu h0]
  rfl

end Sys2Proof.Machine
end

section
/-! The lower bounds on duration (R321): every clock cycle waits two half-periods, and nothing else waits but the settle delay of
SWJ.DRIVE. -/

namespace Sys2Proof.Machine

/-! ### Waits of a run of bits -/

@[simp] theorem delayTotal_nil : delayTotal [] = 0 := rfl

@[simp] theorem delayTotal_cons (e : Event) (es : List Event) : delayTotal (e :: es) = delayOf e + delayTotal es := rfl

@[simp] theorem delayTotal_append (es fs : List Event) : delayTotal (es ++ fs) = delayTotal es + delayTotal fs := by
  rw [delayTotal, List.map_append, List.sum_append]
  rfl

@[simp] theorem delayOf_delay (n : Nat) : delayOf (.delay n) = n := rfl

@[simp] theorem delayOf_mode (L : Line) (m : Mode) : delayOf (.mode L m) = 0 := rfl

@[simp] theorem delayOf_write (L : Line) (b : Bool) : delayOf (.write L b) = 0 := rfl

@[simp] theorem delayOf_sample (L : Line) (b : Bool) : delayOf (.sample L b) = 0 := rfl

section

variable (halfPeriod : Nat)

/-- R190. -/
@[simp] theorem delayTotal_engOutEvents (b : Bool) : delayTotal (engOutEvents halfPeriod b) = 2 * halfPeriod := by
  simp [engOutEvents, Nat.two_mul]

/-- R191. -/
@[simp] theorem delayTotal_engInEvents (b : Bool) : delayTotal (engInEvents halfPeriod b) = 2 * halfPeriod := by
  simp [engInEvents, Nat.two_mul]

/-- R174. -/
@[simp] theorem delayTotal_swjOutEvents (b : Bool) : delayTotal (swjOutEvents halfPeriod b) = 2 * halfPeriod := by
  simp [swjOutEvents, Nat.two_mul]

/-- Bits that wait alike wait in all as often as there are bits. -/
theorem delayTotal_flatMap {bit : Nat → List Event} {wait : Nat} (hbit : ∀ k, delayTotal (bit k) = wait) (n : Nat) :
    delayTotal ((List.range n).flatMap bit) = n * wait := by
  induction n with
  | zero => simp
  | succ n ih =>
    rw [List.range_succ, List.flatMap_append, delayTotal_append, ih, List.flatMap_singleton, hbit, Nat.succ_mul]

@[simp] theorem delayTotal_sendEvents (n : Nat) (v : Word) :
    delayTotal (sendEvents halfPeriod n v) = n * (2 * halfPeriod) :=
  delayTotal_flatMap (fun _ => delayTotal_engOutEvents ..) n

@[simp] theorem delayTotal_recvEvents (n : Nat) (f : Nat → Bool) :
    delayTotal (recvEvents halfPeriod n f) = n * (2 * halfPeriod) :=
  delayTotal_flatMap (fun _ => delayTotal_engInEvents ..) n

@[simp] theorem delayTotal_sequenceEvents (n : Nat) (bytes : List Byte) :
    delayTotal (sequenceEvents halfPeriod n bytes) = n * (2 * halfPeriod) :=
  delayTotal_flatMap (fun _ => delayTotal_swjOutEvents ..) n

end

/-! ### Setting and driving a line waits for nothing -/

section

variable (m : Mode) (L : Line) (selected level : Bool)

@[simp] theorem delayTotal_modeEvents (c : Mode) : delayTotal (modeEvents c L m) = 0 := by
  unfold modeEvents
  split <;> rfl

@[simp] theorem delayTotal_pushPullEvents : delayTotal (pushPullEvents m L selected level) = 0 := by
  unfold pushPullEvents
  split <;> simp

@[simp] theorem delayTotal_openDrainEvents : delayTotal (openDrainEvents m selected level) = 0 := by
  unfold openDrainEvents
  split_ifs <;> simp

end

/-! ### Waits of an operation -/

section

variable {apndp rnw : Bool} {a : BitVec 2} {data : Word} {s t : State} {n : Nat}

/-- A transaction waits for its 8 request bits and the `n` bits of its ACK phase, then for the `k` bits after them. -/
theorem delayTotal_acknowledged {k : Nat} {rest : List TraceEntry}
    (ht : t.trace = (acknowledged apndp rnw a s n).trace ++ rest)
    (hrest : delayTotal (rest.map TraceEntry.event) = k * (2 * s.halfPeriod.toNat)) :
    delayTotal (newEvents s t) = (8 + n + k) * (2 * s.halfPeriod.toNat) := by
  rw [Nat.add_mul, ← hrest, newEvents, ht]
  simp [acknowledged, requested, Nat.add_mul, Nat.add_assoc]

/-- After the ACK of a read, 33 data bits and 8 trailing bits (R201). -/
theorem delayTotal_readEnded :
    delayTotal (newEvents s (readEnded apndp a s)) = 53 * (2 * s.halfPeriod.toNat) := by
  refine delayTotal_acknowledged (n := 4) (k := 33 + 8) (by rw [readEnded, List.append_assoc, List.append_assoc]) ?_
  rw [Nat.add_mul]
  simp

/-- After the ACK of a write, 32 data bits, the parity bit and 8 trailing bits (R204). -/
theorem delayTotal_writeEnded :
    delayTotal (newEvents s (writeEnded apndp a data s)) = 54 * (2 * s.halfPeriod.toNat) := by
  refine delayTotal_acknowledged (n := 5) (k := 32 + 1 + 8) (by rw [writeEnded, List.append_assoc]) ?_
  rw [Nat.add_mul, Nat.add_mul, Nat.one_mul]
  simp [Nat.add_assoc]

/-- After an ACK that is not OK, 4 bits of flush (R202). -/
theorem delayTotal_errorEnded :
    delayTotal (newEvents s (errorEnded apndp rnw a s n)) = (8 + n + 4) * (2 * s.halfPeriod.toNat) :=
  delayTotal_acknowledged rfl (by simp)

theorem swdRead_delayTotal (h : swdRead apndp a s = .ok t) :
    delayTotal (newEvents s t) = (if ackReceived s = ackOkCode then 106 else 32) * s.halfPeriod.toNat := by
  split
  · next hack =>
    cases (swdRead_ackOk hack).symm.trans h
    rw [delayTotal_readEnded]
    omega
  · next hack =>
    cases (swdRead_ackError hack).symm.trans h
    rw [delayTotal_errorEnded]
    omega

theorem swdWrite_delayTotal (h : swdWrite apndp a data s = .ok t) :
    delayTotal (newEvents s t) = (if ackReceived s = ackOkCode then 108 else 34) * s.halfPeriod.toNat := by
  split
  · next hack =>
    cases (swdWrite_ackOk hack).symm.trans h
    rw [delayTotal_writeEnded]
    omega
  · next hack =>
    cases (swdWrite_ackError hack).symm.trans h
    rw [delayTotal_errorEnded]
    omega

theorem swjClockSequence_delayTotal {bitCount : Word} {bytes : List Byte} (h : swjClockSequence bitCount bytes s = .ok t) :
    delayTotal (newEvents s t) = 2 * s.halfPeriod.toNat * seqLength bitCount bytes := by
  cases (swjClockSequence_eq bitCount bytes s rfl).symm.trans h
  rw [newEvents_of_trace rfl]
  simp [Nat.mul_comm]

/-- The settle delay is the one wait of SWJ.DRIVE, whatever the masks (R157, R171). -/
theorem swjDrive_delayTotal {B : MaskBits} {levels mask : Byte} {settleUs : Word}
    (h : swjDrive B levels mask settleUs s = .ok t) :
    delayTotal (newEvents s t) = settleCycles settleUs s.cyclesPerUs := by
  cases (swjDrive_eq B levels mask settleUs s).symm.trans h
  rw [newEvents_of_trace rfl]
  simp

end

/-- Settles O45: the waits are those of the events in each operation's closed form. -/
theorem durationLowerBounds : Obligations.DurationLowerBounds := by
  refine fun s t => ⟨fun apndp a howner h => ?_, fun apndp a data howner h => ?_,
    fun bitCount bytes h => ?_, fun levels mask settleUs h => ?_⟩
  · rw [exec_swdRead howner] at h
    exact swdRead_delayTotal (toOutcome_next h)
  · rw [exec_swdWrite howner] at h
    exact swdWrite_delayTotal (toOutcome_next h)
  · exact swjClockSequence_delayTotal (toOutcome_next h)
  · exact swjDrive_delayTotal (toOutcome_next h)

end Sys2Proof.Machine
end
